-- ==== Sys2Proof/Word.lean ====
section
/-! DEFINITION. The plainest types of TAPENG: a level of a wire, the 48-bit command word, the 32-bit word of operands
and results (spec 00_scope.md R7, 30_encoding.md R71, R72, R78). -/

namespace Sys2Proof

/-- A level is one bit (R7): `false` is the low wire level 0, `true` the high wire level 1. -/
abbrev Level := Bool

/-- The 48-bit command word `cmd[47:0]` (R71). -/
abbrev Command := BitVec 48

/-- A 32-bit operand (`value`, R72) or response field (`r0`, `r1`, R78). -/
abbrev Word := BitVec 32

end Sys2Proof
end

