-- ==== Sys2Proof/Syntax.lean ====
section
/-! DEFINITION. The commands of TAPENG (spec 30_encoding.md R70): one constructor per row of spec/opcode_table.json,
with the operand fields of the command word (R71, R72). -/

namespace Sys2Proof

/-- A command with its operands (R70). An operand has the width of its field (R72): every value a field can hold is a
command, also those that are refused when they run (`sig` 5 to 7, R95; `width` 0 and 33 to 63, R73, R143). -/
inductive Instr where
  /-- OPEN: acquire the link (R91). -/
  | openLink
  /-- CLOSE: release the link (R93). -/
  | closeLink
  /-- SETSIG sig, level: drive one output signal (R94). -/
  | setsig (sig : BitVec 3) (level : Level)
  /-- RDTDO: sample the input line (R96). -/
  | rdtdo
  /-- CONNECT: idle pattern, port reset, walk to the home state (R121). -/
  | connect
  /-- SHIFT_IR width, value: instruction shift (R145). -/
  | shiftIr (width : BitVec 6) (value : Word)
  /-- SHIFT_DR width, value: data shift (R146). -/
  | shiftDr (width : BitVec 6) (value : Word)
  /-- MEASURE: length of both scan paths (R160). -/
  | measure
  /-- EXEC_IN_RESET width, value: instruction shift with the target's reset line asserted (R147). -/
  | execInReset (width : BitVec 6) (value : Word)
deriving DecidableEq, Repr

end Sys2Proof
end

