-- ==== Sys2Proof/Decode.lean ====
section
/-! DEFINITION. From command words to commands and back (spec 30_encoding.md R71 to R77, R80): the fields, the decoder
(total, rejecting by name), the encoder, and the match and mask table of R75. -/

namespace Sys2Proof

/-! ### Fields (R71, R72) -/

/-- `cmd[hi:lo]` of width `n = hi - lo + 1` (R7). -/
def field (lo n : Nat) (w : Command) : BitVec n := w.extractLsb' lo n

/-- `op = cmd[43:40]` (R72). -/
def opField (w : Command) : BitVec 4 := field 40 4 w

/-- `sig = cmd[34:32]` of format L (R72). -/
def sigField (w : Command) : BitVec 3 := field 32 3 w

/-- `level = cmd[0]` of format L (R72). -/
def levelField (w : Command) : Level := w.getLsbD 0

/-- `width = cmd[37:32]` of format S (R72). -/
def widthField (w : Command) : BitVec 6 := field 32 6 w

/-- `value = cmd[31:0]` of format S (R72). -/
def valueField (w : Command) : Word := field 0 32 w

/-- Format N: every bit but `op` is reserved and 0 (R71). -/
def reservedClearN (w : Command) : Bool := field 44 4 w == 0 && field 0 40 w == 0

/-- Format L: every bit but `op`, `sig` and `level` is reserved and 0 (R71). -/
def reservedClearL (w : Command) : Bool := field 44 4 w == 0 && field 35 5 w == 0 && field 1 31 w == 0

/-- Format S: bits 47 to 44 and 39, 38 are reserved and 0 (R71). -/
def reservedClearS (w : Command) : Bool := field 44 4 w == 0 && field 38 2 w == 0

/-! ### The decoder (R74, R77) -/

/-- Why a word is illegal (R77). Both are answered `IllegalCommand`. -/
inductive Illegal where
  /-- `op` is 0 or 10 to 15, which select nothing (R74). -/
  | noSuchOperation
  /-- A reserved bit of the operation's format is set (R71). -/
  | reservedBitSet
deriving DecidableEq, Repr

/-- A command whose format's reserved bits must be clear. -/
def whenClear (clear : Bool) (i : Instr) : Except Illegal Instr :=
  if clear then .ok i else .error .reservedBitSet

/-- The decoder: `op` selects the operation (R74), the rest of the word must fit its format (R71, R77). Total on every
48-bit word; there is one length (R80). -/
def decode (w : Command) : Except Illegal Instr :=
  match (opField w).toNat with
  | 1 => whenClear (reservedClearN w) .openLink
  | 2 => whenClear (reservedClearN w) .closeLink
  | 3 => whenClear (reservedClearL w) (.setsig (sigField w) (levelField w))
  | 4 => whenClear (reservedClearN w) .rdtdo
  | 5 => whenClear (reservedClearN w) .connect
  | 6 => whenClear (reservedClearS w) (.shiftIr (widthField w) (valueField w))
  | 7 => whenClear (reservedClearS w) (.shiftDr (widthField w) (valueField w))
  | 8 => whenClear (reservedClearN w) .measure
  | 9 => whenClear (reservedClearS w) (.execInReset (widthField w) (valueField w))
  | _ => .error .noSuchOperation

/-- The decoder on the opcode table's numbering: bit 0 of `w` is `cmd[0]`. A row has 48 bits; the bits above a shorter
`nbits` are 0. A number that does not fit in `nbits` or in 48 bits is no word. -/
def decodeTableWord (nbits w : Nat) : Option Instr :=
  if w < 2 ^ nbits ∧ w < 2 ^ 48 then (decode (BitVec.ofNat 48 w)).toOption else none

/-! ### The encoder (R71 to R74) -/

/-- A word of format N (R71). -/
def wordN (op : BitVec 4) : Command := (0#4 ++ op) ++ 0#40

/-- A word of format L (R71). -/
def wordL (op : BitVec 4) (sig : BitVec 3) (level : Level) : Command :=
  (0#4 ++ op) ++ ((0#5 ++ sig) ++ (0#31 ++ BitVec.ofBool level))

/-- A word of format S (R71). -/
def wordS (op : BitVec 4) (width : BitVec 6) (value : Word) : Command :=
  (0#4 ++ op) ++ ((0#2 ++ width) ++ value)

/-- The one command word of a command (R71 to R74). -/
def encode : Instr → Command
  | .openLink => wordN 1
  | .closeLink => wordN 2
  | .setsig sig level => wordL 3 sig level
  | .rdtdo => wordN 4
  | .connect => wordN 5
  | .shiftIr width value => wordS 6 width value
  | .shiftDr width value => wordS 7 width value
  | .measure => wordN 8
  | .execInReset width value => wordS 9 width value

/-! ### Match and mask (R75), a second account of the same encoding -/

/-- A row of the opcode table: a word `w` selects it when `w AND mask = pattern` (R75). -/
structure Row where
  mask : Command
  pattern : Command
deriving DecidableEq, Repr

/-- R75: "A word w selects an operation when `w AND mask = match`". -/
def Row.selects (r : Row) (w : Command) : Bool := w &&& r.mask == r.pattern

/-- The row of each operation (R75 and spec/opcode_table.json). -/
def Instr.row : Instr → Row
  | .openLink => { mask := 0xFFFFFFFFFFFF, pattern := 0x010000000000 }
  | .closeLink => { mask := 0xFFFFFFFFFFFF, pattern := 0x020000000000 }
  | .setsig _ _ => { mask := 0xFFF8FFFFFFFE, pattern := 0x030000000000 }
  | .rdtdo => { mask := 0xFFFFFFFFFFFF, pattern := 0x040000000000 }
  | .connect => { mask := 0xFFFFFFFFFFFF, pattern := 0x050000000000 }
  | .shiftIr _ _ => { mask := 0xFFC000000000, pattern := 0x060000000000 }
  | .shiftDr _ _ => { mask := 0xFFC000000000, pattern := 0x070000000000 }
  | .measure => { mask := 0xFFFFFFFFFFFF, pattern := 0x080000000000 }
  | .execInReset _ _ => { mask := 0xFFC000000000, pattern := 0x090000000000 }

/-- The nine rows in the order of the opcode table. -/
def rows : List Row :=
  [Instr.row .openLink, Instr.row .closeLink, Instr.row (.setsig 0 false), Instr.row .rdtdo, Instr.row .connect,
   Instr.row (.shiftIr 0 0), Instr.row (.shiftDr 0 0), Instr.row .measure, Instr.row (.execInReset 0 0)]

end Sys2Proof
end

