-- ==== Sys2Proof/Config.lean ====
section
/-! DEFINITION. The implementation parameters of TAPENG (spec 00_scope.md R5) and the free values: what the spec leaves
to the session, the board or the environment is an opaque constant here, so that no proof can see a value of it. -/

namespace Sys2Proof

/-- The parameters that are arguments of the model (R5): the two chain offsets, in bits (R6), and the probe bound. -/
structure Params where
  /-- `IR_OFFSET`: bits of the instruction path between data-in and the target's own register (R5, R6). -/
  irOffset : Nat
  /-- `DR_OFFSET`: the same on the data path (R5, R6). -/
  drOffset : Nat
  /-- `MAX_PROBE`: the bound of one length probe (R5; OPEN by D14). -/
  maxProbe : Nat
deriving DecidableEq, Repr

/-- R5: `MAX_PROBE` is at least 1. -/
abbrev Params.wf (p : Params) : Prop := 1 ≤ p.maxProbe

/-- The environment's answer to OPEN (spec 40_link_ops.md R91, R92). -/
inductive OpenAnswer where
  | Found
  | NotFound
  | Busy
deriving DecidableEq, Repr, Inhabited

/-- The three durations a `Wait` event can name (R10): `T_SETTLE`, `T_PULSE`, `T_RESET`. -/
inductive Duration where
  | settle
  | pulse
  | reset
deriving DecidableEq, Repr

namespace Config

/-- `IR_WIDTH_DEFAULT` (R5): the width of `shiftInstruction(code)` with its width left out. -/
def irWidthDefault : Nat := 4

/-- `MAX_WIDTH` (R5). -/
def maxWidth : Nat := 32

/-- `N_TLR` (R5): clock cycles with `mode` high on each side of the reset pulse. -/
def nTlr : Nat := 5

/-- `IR_OFFSET` of the session (R5): a configuration input, no value known. Log 3. -/
opaque irOffset : Nat

/-- `DR_OFFSET` of the session (R5): a configuration input, no value known. Log 3. -/
opaque drOffset : Nat

/-- `MAX_PROBE - 1`: the bound is OPEN (D14) and at least 1 (R5). Log 3. -/
opaque maxProbeLessOne : Nat

/-- The parameters a session starts with (R5). Log 3. -/
def params : Params :=
  { irOffset := irOffset, drOffset := drOffset, maxProbe := maxProbeLessOne + 1 }

/-- `T_PULSE` in nanoseconds: OPEN (R5, D15). Log 9. -/
opaque tPulse : Nat

/-- `T_RESET` in nanoseconds: OPEN (R5, D15). Log 9. -/
opaque tReset : Nat

/-- The least duration a `Wait` stands for, in nanoseconds: `T_SETTLE` is nominally 100 (R5), the others are OPEN. -/
def leastTime : Duration → Nat
  | .settle => 100
  | .pulse => tPulse
  | .reset => tReset

/-- FREE VALUE: the level of the n-th sample the environment was not asked about beforehand (R9 `draw()`, R23, U1).
Log 6. -/
opaque freeSample : Nat → Level

/-- FREE VALUE: the environment's n-th answer to OPEN that was not given beforehand (R92, U10). Log 7. -/
opaque freeAnswer : Nat → OpenAnswer

/-- FREE VALUE: the response word of a path length that does not fit in 32 bits (R78 states none). Log 8. -/
opaque freeLengthWord : Nat → Word

end Config

end Sys2Proof
end

