-- ==== Sys2Proof/Machine/State.lean ====
section
/-! DEFINITION. The state of TAPENG as plain data (spec 10_state.md R20): the nine architectural items, and beside them
the model's own fields for what the spec makes an argument, an input or an output of the step (R34; log 1 to 7). -/

namespace Sys2Proof.Machine

/-- The link (R20): not acquired, acquired, or failed for good (R174). -/
inductive Link where
  | Closed
  | Open
  | Failed
deriving DecidableEq, Repr

/-- The 16 states of the port's state machine, spelled as in 00_scope.md R12. -/
inductive Tap where
  | TestLogicReset
  | RunTestIdle
  | SelectDRScan
  | CaptureDR
  | ShiftDR
  | Exit1DR
  | PauseDR
  | Exit2DR
  | UpdateDR
  | SelectIRScan
  | CaptureIR
  | ShiftIR
  | Exit1IR
  | PauseIR
  | Exit2IR
  | UpdateIR
deriving DecidableEq, Repr

/-- The five output signals (R21, 30_encoding.md R76). -/
inductive Signal where
  | clock
  | mode
  | dataIn
  | resetRequest
  | trst
deriving DecidableEq, Repr

/-- The five output latches `out[s]`: the level last driven on each output signal (R21). -/
structure Latches where
  clock : Level
  mode : Level
  dataIn : Level
  resetRequest : Level
  trst : Level
deriving DecidableEq, Repr

/-- The idle pattern, which is also the reset value of the latches (R22). -/
def Latches.idle : Latches :=
  { clock := false, mode := true, dataIn := false, resetRequest := true, trst := true }

/-- An event of the link trace (00_scope.md R10). -/
inductive Event where
  /-- Output signal `s` is driven to level `v`. -/
  | set (s : Signal) (v : Level)
  /-- The input line was sampled and read `v`. -/
  | sample (v : Level)
  /-- At least the duration `t` elapses. -/
  | wait (t : Duration)
deriving DecidableEq, Repr

/-- The status of a response (30_encoding.md R79); 12 to 15 are never returned and have no name. -/
inductive Status where
  | OK
  | Overflow
  | AdapterNotFound
  | AdapterBusy
  | LinkNotOpen
  | LinkAlreadyOpen
  | IllegalCommand
  | BadSignal
  | BadWidth
  | NotHome
  | ShiftTooWide
  | LinkFailed
deriving DecidableEq, Repr

/-- The response `(status, r0, r1)` of a command (30_encoding.md R78). -/
structure Response where
  status : Status
  r0 : Word
  r1 : Word
deriving DecidableEq, Repr

/-- What the host does to TAPENG: it issues a command word (30_encoding.md R70, R80), or it resets the engine
(70_reset_and_hazards.md R200). Log 1, log 12. -/
inductive HostAct where
  | command (w : Command)
  | engineReset
deriving DecidableEq, Repr

/-- The machine. The first nine items are R20's and are TAPENG's whole architectural state; the rest are the model's
own fields (R34): arguments (`params`), inputs (`host`, `samples`, `answers` and their counters) and outputs
(`response`, `trace`). -/
structure State where
  /-- `link` (R20). -/
  link : Link
  /-- The five latches `out[s]` (R20, R21). -/
  out : Latches
  /-- `tap`, the tracked state machine (R20, R24). -/
  tap : Tap
  /-- `LEN_I`: 0 is "not measured" (R20, R28). -/
  lenI : Nat
  /-- `LEN_D`: 0 is "not measured" (R20, R28). -/
  lenD : Nat
  /-- Argument: the parameters of R5, never written. Log 3. -/
  params : Params
  /-- Input: what the host does next, first entry first. Log 1. -/
  host : List HostAct
  /-- Output: the response of the last command. Log 4. -/
  response : Option Response
  /-- Output: the link trace, oldest event first (R10). Log 5. -/
  trace : List Event
  /-- Input: the environment's answers to the coming samples (R9, R23). Log 6. -/
  samples : List Level
  /-- Counter of the free draws made once `samples` is used up. Log 6. -/
  drawn : Nat
  /-- Input: the environment's answers to the coming OPEN commands (R92). Log 7. -/
  answers : List OpenAnswer
  /-- Counter of the free answers taken once `answers` is used up. Log 7. -/
  asked : Nat
deriving DecidableEq, Repr

/-- TAPENG right after an engine reset (R20, R22, R200), in a session in which the host has done nothing yet. -/
def State.reset : State :=
  { link := .Closed
    out := Latches.idle
    tap := .TestLogicReset
    lenI := 0
    lenD := 0
    params := Config.params
    host := []
    response := none
    trace := []
    samples := []
    drawn := 0
    answers := []
    asked := 0 }

/-- Why the machine stops with a fault: never. The faults of 60_exceptions.md R170 are responses, after which TAPENG
accepts the next command (R179), so the type has no constructor; that is the spec's own account, neither safe nor
unsafe. -/
inductive Fault where
deriving DecidableEq, Repr

/-- Why a step has no meaning. -/
inductive Refusal where
  /-- An instruction that has no meaning yet. Raised by no arm of `exec`: all nine commands are modelled. Safe: it would
  stop the run. The refusals of 60_exceptions.md R170 are responses, not this. -/
  | notModelled (mnemonic : String)
deriving DecidableEq, Repr

end Sys2Proof.Machine
end

