-- ==== Sys2Proof/Machine/Operands.lean ====
section
/-! DEFINITION. Operands, latches and the small computations on them (spec 30_encoding.md R73, R76, R78; 10_state.md R21;
42_shift_ops.md R142, R150). -/

namespace Sys2Proof.Machine

/-! ### Signals and latches -/

/-- The signal a `sig` operand names (R76); 5, 6 and 7 name none. -/
def signalOf (sig : BitVec 3) : Option Signal :=
  match sig.toNat with
  | 0 => some .clock
  | 1 => some .mode
  | 2 => some .dataIn
  | 3 => some .resetRequest
  | 4 => some .trst
  | _ => none

/-- `out[s]` (R9, R21). -/
def Latches.get (o : Latches) : Signal → Level
  | .clock => o.clock
  | .mode => o.mode
  | .dataIn => o.dataIn
  | .resetRequest => o.resetRequest
  | .trst => o.trst

/-- `out[s] <- v` (R9, R21). -/
def Latches.set (o : Latches) : Signal → Level → Latches
  | .clock, v => { o with clock := v }
  | .mode, v => { o with mode := v }
  | .dataIn, v => { o with dataIn := v }
  | .resetRequest, v => { o with resetRequest := v }
  | .trst, v => { o with trst := v }

/-- The level TAPENG drives on the wire of signal `sig`: the latch while `link = Open` (R21), and nothing otherwise.
What level an undriven wire takes is outside TAPENG (U9). Log 13. -/
def wire (s : State) (sig : Signal) : Option Level :=
  match s.link with
  | .Open => some (s.out.get sig)
  | .Closed => none
  | .Failed => none

/-! ### Widths, lengths and bits -/

/-- `pathLen(LEN, P, W)` (R142): the length of a scan; an unmeasured path (`LEN = 0`) is taken to be `P + W` long. -/
def pathLen (len P W : Nat) : Nat := if len = 0 then P + W else len

/-- `zext_32(v)` of a sampled level (R96). -/
def levelWord (v : Level) : Word := if v then 1 else 0

/-- `r[k] <- b` (R141). -/
def setBit (r : Word) (k : Nat) (b : Level) : Word :=
  if b then r ||| (1#32 <<< k) else r &&& ~~~(1#32 <<< k)

/-- A measured length as a 32-bit response field (R78). A length of 2^32 or more has no stated field: a free value
(log 8). -/
def lengthWord (n : Nat) : Word := if n < 2 ^ 32 then BitVec.ofNat 32 n else Config.freeLengthWord n

/-! ### Loops -/

/-- `for i in first..first+n-1` (R9): `n` iterations, `i` counting up from `first`; none when `n = 0`. -/
def forLoop {α : Type} (body : Nat → α → α) : Nat → Nat → α → α
  | 0, _, a => a
  | n + 1, first, a => forLoop body n (first + 1) (body first a)

end Sys2Proof.Machine
end

