-- ==== Sys2Proof/Machine/Flags.lean ====
section
/-! DEFINITION. TAPENG has no flags (spec 10_state.md R31): what stands in their place is the status of a response. Here
are the status numbers (30_encoding.md R79), the home predicate (41_tap_state_machine.md R114) and the tests behind each
refusal, in the order of 60_exceptions.md R176. -/

namespace Sys2Proof.Machine

/-- The number of a status (R79). -/
def Status.code : Status → BitVec 4
  | .OK => 0
  | .Overflow => 1
  | .AdapterNotFound => 2
  | .AdapterBusy => 3
  | .LinkNotOpen => 4
  | .LinkAlreadyOpen => 5
  | .IllegalCommand => 6
  | .BadSignal => 7
  | .BadWidth => 8
  | .NotHome => 9
  | .ShiftTooWide => 10
  | .LinkFailed => 11

/-- `Home = (link = Open) and (tap = SelectDRScan) and (out[clock] = 0) and (out[trst] = 1)` (R114). -/
def home (s : State) : Bool :=
  s.link == .Open && s.tap == .SelectDRScan && s.out.clock == false && s.out.trst == true

/-- The refusal of OPEN (R91): it needs `link = Closed`. -/
def openRefusal (s : State) : Option Status :=
  match s.link with
  | .Failed => some .LinkFailed
  | .Open => some .LinkAlreadyOpen
  | .Closed => none

/-- The refusal of a command that needs the link (R90, R121, R176 steps 2 and 3). -/
def linkRefusal (s : State) : Option Status :=
  match s.link with
  | .Failed => some .LinkFailed
  | .Closed => some .LinkNotOpen
  | .Open => none

/-- The refusal of a width that is 0 or above 32 (R143). -/
def widthRefusal (W : Nat) : Option Status :=
  if W = 0 ∨ Config.maxWidth < W then some .BadWidth else none

/-- The refusal away from the home state (R115, R175). -/
def homeRefusal (s : State) : Option Status := if home s then none else some .NotHome

/-- The refusal of a shift that does not fit in a measured path (R144). -/
def fitRefusal (len P W : Nat) : Option Status :=
  if len ≠ 0 ∧ len < P + W then some .ShiftTooWide else none

/-- The refusals of a shift command in order (R145 to R147, R176): link, width, home, fit. -/
def shiftRefusal (len P W : Nat) (s : State) : Option Status :=
  (linkRefusal s).or ((widthRefusal W).or ((homeRefusal s).or (fitRefusal len P W)))

/-- The refusals of MEASURE in order (R160, R176): link, home. -/
def measureRefusal (s : State) : Option Status := (linkRefusal s).or (homeRefusal s)

end Sys2Proof.Machine
end

