-- ==== Sys2Proof/Machine/Ops.lean ====
section
/-! DEFINITION. The shared operations of TAPENG: the three primitives of the link driver (spec 40_link_ops.md R97 to R99),
the transition function and the micro-operations of the engine (41_tap_state_machine.md R110, R116 to R120), the response
and `raise` (00_scope.md R9, 60_exceptions.md R171), and the engine reset (70_reset_and_hazards.md R200). -/

namespace Sys2Proof.Machine

/-! ### Responses: the one way a command ends (R170) -/

/-- The command ends with response `(status, r0, r1)` (R78). -/
def respond (status : Status) (r0 r1 : Word) (s : State) : State :=
  { s with response := some { status := status, r0 := r0, r1 := r1 } }

/-- `raise E` (R9, R171): the command ends at once with response `(E, 0, 0)`. There is no handler, nothing is saved and
nothing returns from it (R178, R179). -/
def raise (e : Status) (s : State) : State := respond e 0 0 s

/-! ### The tracked state machine -/

/-- `tap_next(s, m)` (R110). The comment is the row's marks: S from the source, G from general knowledge (K1; log 10). -/
def tapNext : Tap → Level → Tap
  | .TestLogicReset, false => .RunTestIdle     -- S
  | .TestLogicReset, true => .TestLogicReset   -- G
  | .RunTestIdle, false => .RunTestIdle        -- G
  | .RunTestIdle, true => .SelectDRScan        -- S
  | .SelectDRScan, false => .CaptureDR         -- S
  | .SelectDRScan, true => .SelectIRScan       -- S
  | .CaptureDR, false => .ShiftDR              -- S
  | .CaptureDR, true => .Exit1DR               -- G
  | .ShiftDR, false => .ShiftDR                -- S
  | .ShiftDR, true => .Exit1DR                 -- S
  | .Exit1DR, false => .PauseDR                -- G
  | .Exit1DR, true => .UpdateDR                -- S
  | .PauseDR, false => .PauseDR                -- G
  | .PauseDR, true => .Exit2DR                 -- G
  | .Exit2DR, false => .ShiftDR                -- G
  | .Exit2DR, true => .UpdateDR                -- G
  | .UpdateDR, false => .RunTestIdle           -- G
  | .UpdateDR, true => .SelectDRScan           -- S
  | .SelectIRScan, false => .CaptureIR         -- S
  | .SelectIRScan, true => .TestLogicReset     -- G
  | .CaptureIR, false => .ShiftIR              -- S
  | .CaptureIR, true => .Exit1IR               -- G
  | .ShiftIR, false => .ShiftIR                -- S
  | .ShiftIR, true => .Exit1IR                 -- S
  | .Exit1IR, false => .PauseIR                -- G
  | .Exit1IR, true => .UpdateIR                -- S
  | .PauseIR, false => .PauseIR                -- G
  | .PauseIR, true => .Exit2IR                 -- G
  | .Exit2IR, false => .ShiftIR                -- G
  | .Exit2IR, true => .UpdateIR                -- G
  | .UpdateIR, false => .RunTestIdle           -- G
  | .UpdateIR, true => .SelectDRScan           -- S

/-- `tap` after writing level `v` to signal `sig`: the rising-edge rule (R25) and the trst rule (R26), as R97 orders
them. The latches read are those before the write; a write of `clock` changes neither `mode` nor `trst`. -/
def tapAfter (sig : Signal) (v : Level) (s : State) : Tap :=
  match sig with
  | .clock =>
    if s.out.clock = false ∧ v = true then
      (if s.out.trst = false then .TestLogicReset else tapNext s.tap s.out.mode)
    else s.tap
  | .trst => if v = false then .TestLogicReset else s.tap
  | .mode => s.tap
  | .dataIn => s.tap
  | .resetRequest => s.tap

/-! ### Link driver primitives -/

/-- `setSignal(s, v)` (R97): the latch, its `Set` event (also when the level does not change, D25) and `tap`, as one
indivisible action. -/
def setSignal (sig : Signal) (v : Level) (s : State) : State :=
  { s with
    out := s.out.set sig v
    tap := tapAfter sig v s
    trace := s.trace ++ [.set sig v] }

/-- `draw()` (R9): a level supplied by the environment, the next of its given answers or, past them, a free value. -/
def draw (s : State) : Level × State :=
  match s.samples with
  | b :: rest => (b, { s with samples := rest })
  | [] => (Config.freeSample s.drawn, { s with drawn := s.drawn + 1 })

/-- `readDataOut()` (R98): `v <- draw(); emit Sample(v); return v`. -/
def readDataOut (s : State) : Level × State :=
  let d := draw s
  (d.1, { d.2 with trace := d.2.trace ++ [.sample d.1] })

/-- `wait(t)` (R99): `emit Wait(t)` and nothing else. -/
def wait (t : Duration) (s : State) : State := { s with trace := s.trace ++ [.wait t] }

/-- The environment's answer to OPEN (R91, R92): the next given one or, past them, a free value. -/
def askEnvironment (s : State) : OpenAnswer × State :=
  match s.answers with
  | a :: rest => (a, { s with answers := rest })
  | [] => (Config.freeAnswer s.asked, { s with asked := s.asked + 1 })

/-! ### Micro-operations of the engine -/

/-- `pulse()` (R116): one clock pulse, low to high to low. -/
def pulse (s : State) : State :=
  wait .pulse (setSignal .clock false (wait .pulse (setSignal .clock true s)))

/-- `shiftCycle(tms, tdi, sample)` (R117): data-in, mode, settle, the sample if any with the clock low, then the pulse.
The level is `none` when no sample is taken. -/
def shiftCycle (tms tdi sample : Level) (s : State) : Option Level × State :=
  let ready := wait .settle (setSignal .mode tms (setSignal .dataIn tdi s))
  if sample then
    let b := readDataOut ready
    (some b.1, pulse b.2)
  else (none, pulse ready)

/-- `navCycle(tms)` (R118): one clock cycle that only moves the state machine. -/
def navCycle (tms : Level) (s : State) : State := pulse (wait .settle (setSignal .mode tms s))

/-- `probeSample()` (R119). -/
def probeSample (s : State) : Level × State := readDataOut (wait .settle s)

/-- `toShiftIR()` (R120): from SelectDRScan through SelectIRScan and CaptureIR to ShiftIR. -/
def toShiftIR (s : State) : State := navCycle false (navCycle false (navCycle true s))

/-- `toShiftDR()` (R120): from SelectDRScan through CaptureDR to ShiftDR. -/
def toShiftDR (s : State) : State := navCycle false (navCycle false s)

/-- `exitToHome()` (R120): from Exit1DR or Exit1IR through the Update state to SelectDRScan. -/
def exitToHome (s : State) : State := navCycle true (navCycle true s)

/-! ### Engine reset and the fetch of the host's next act -/

/-- Engine reset (R200): the nine items at their reset values, no event. The model's own fields are outside TAPENG and
stay (log 12). -/
def engineReset (s : State) : State :=
  { s with
    link := .Closed
    out := Latches.idle
    tap := .TestLogicReset
    lenI := 0
    lenD := 0 }

/-- The host's act is taken off its list: TAPENG keeps no command (R30, R61). -/
def takeAct (rest : List HostAct) (s : State) : State := { s with host := rest }

/-- The host issues the word `w` next. -/
def issue (w : Command) (s : State) : State := { s with host := .command w :: s.host }

end Sys2Proof.Machine
end

