-- ==== Sys2Proof/Machine/Connect.lean ====
section
/-! DEFINITION. CONNECT: idle pattern, port reset, walk to the home state (spec 41_tap_state_machine.md R121). -/

namespace Sys2Proof.Machine

/-- The idle pattern, written signal by signal (R121, first lines). -/
def driveIdle (s : State) : State :=
  setSignal .trst true (setSignal .resetRequest true (setSignal .dataIn false (setSignal .mode true
    (setSignal .clock false s))))

/-- `for i in 1..N_TLR: navCycle(1)` (R121). -/
def clockToReset (s : State) : State := forLoop (fun _ => navCycle true) Config.nTlr 1 s

/-- The reset pulse on both reset-family lines, `T_RESET` on each side (R121). -/
def resetPulse (s : State) : State :=
  wait .reset (setSignal .resetRequest true (setSignal .trst true
    (wait .reset (setSignal .resetRequest false (setSignal .trst false s)))))

/-- The body of CONNECT (R121). -/
def connectSequence (s : State) : State :=
  navCycle true (navCycle false (clockToReset (resetPulse (clockToReset (wait .settle (driveIdle s))))))

/-- CONNECT (R121): needs the link, not the home state. -/
def execConnect (s : State) : Host.Outcome State Fault Refusal :=
  .next (match linkRefusal s with
    | some e => raise e s
    | none => respond .OK 0 0 (connectSequence s))

end Sys2Proof.Machine
end

