-- ==== Sys2Proof/Machine/Link.lean ====
section
/-! DEFINITION. The four commands of the link driver: OPEN, CLOSE, SETSIG, RDTDO (spec 40_link_ops.md R90 to R96). -/

namespace Sys2Proof.Machine

/-- The idle pattern's five `Set` events, in the order of the signal numbers (R91, R76). -/
def idleEvents : List Event :=
  [.set .clock false, .set .mode true, .set .dataIn false, .set .resetRequest true, .set .trst true]

/-- A successful OPEN (R91): `link <- Open`, the latches at the idle pattern, each with its event; `tap`, `LEN_I` and
`LEN_D` are not written. -/
def acquire (s : State) : State :=
  respond .OK 0 0 { s with link := .Open, out := Latches.idle, trace := s.trace ++ idleEvents }

/-- A failed OPEN (R91, R174): `link <- Failed`, no event. -/
def failLink (e : Status) (s : State) : State := raise e { s with link := .Failed }

/-- What OPEN does with the environment's answer (R91). -/
def openWith : OpenAnswer → State → State
  | .Found, s => acquire s
  | .NotFound, s => failLink .AdapterNotFound s
  | .Busy, s => failLink .AdapterBusy s

/-- OPEN (R91). -/
def execOpenLink (s : State) : Host.Outcome State Fault Refusal :=
  .next (match openRefusal s with
    | some e => raise e s
    | none => openWith (askEnvironment s).1 (askEnvironment s).2)

/-- CLOSE (R93): accepted in every `link` state, idempotent, no event; `Failed` stays. -/
def execCloseLink (s : State) : Host.Outcome State Fault Refusal :=
  .next (respond .OK 0 0 { s with
    link := match s.link with
      | .Open => .Closed
      | .Closed => .Closed
      | .Failed => .Failed })

/-- SETSIG sig, level (R94, R95): refused by the link first, then by a `sig` that names no signal. -/
def execSetsig (sig : BitVec 3) (level : Level) (s : State) : Host.Outcome State Fault Refusal :=
  .next (match linkRefusal s with
    | some e => raise e s
    | none =>
      match signalOf sig with
      | none => raise .BadSignal s
      | some x => respond .OK 0 0 (setSignal x level s))

/-- RDTDO (R96): `wait(T_SETTLE); v <- readDataOut()`, response `(OK, zext_32(v), 0)`. -/
def execRdtdo (s : State) : Host.Outcome State Fault Refusal :=
  .next (match linkRefusal s with
    | some e => raise e s
    | none =>
      let d := readDataOut (wait .settle s)
      respond .OK (levelWord d.1) 0 d.2)

end Sys2Proof.Machine
end

