-- ==== Sys2Proof/Machine/Measure.lean ====
section
/-! DEFINITION. MEASURE: the length of both scan paths (spec 43_measure.md R160 to R167). -/

namespace Sys2Proof.Machine

/-- The run of `n` ones (R161). -/
def probeRun (n : Nat) (s : State) : State := forLoop (fun _ t => (shiftCycle false true false t).2) n 1 s

/-- The loop of `probePath` (R161), with `n` the count so far and `left = MAX_PROBE - n`: sample; a 0 has reappeared after
`n` pulses; a 1 with none left is an overflow (`none`); else one more pulse. -/
def probeLoop : Nat → Nat → State → Option Nat × State
  | 0, n, s =>
    let d := probeSample s
    (if d.1 = false then some n else none, d.2)
  | left + 1, n, s =>
    let d := probeSample s
    if d.1 = false then (some n, d.2) else probeLoop left (n + 1) (navCycle false d.2)

/-- The single 0, pulse number 1 of the count, and data-in back at 1 (R161). -/
def probeZero (s : State) : State := setSignal .dataIn true (shiftCycle false false false s).2

/-- `probePath(toShift)` (R161), entered in SelectDRScan; `none` is Overflow (R163). -/
def probePath (toShift : State → State) (s : State) : Option Nat × State :=
  let r := probeLoop (s.params.maxProbe - 1) 1 (probeZero (probeRun s.params.maxProbe (toShift s)))
  (r.1, exitToHome (shiftCycle true true false r.2).2)

/-- Both probes (R160): the instruction path, then the data path, also when the first overflowed. -/
def probeBoth (s : State) : (Option Nat × Option Nat) × State :=
  let a := probePath toShiftIR s
  let b := probePath toShiftDR a.2
  ((a.1, b.1), b.2)

/-- An overflow (R160, R163, R164): both lengths cleared, `raise Overflow`. -/
def overflowed (s : State) : State := raise .Overflow { s with lenI := 0, lenD := 0 }

/-- The end of MEASURE (R160, R164): both lengths written, or both cleared. -/
def recordLengths : Option Nat × Option Nat → State → State
  | (some m, some n), s => respond .OK (lengthWord m) (lengthWord n) { s with lenI := m, lenD := n }
  | (some _, none), s => overflowed s
  | (none, some _), s => overflowed s
  | (none, none), s => overflowed s

/-- MEASURE (R160). -/
def execMeasure (s : State) : Host.Outcome State Fault Refusal :=
  .next (match measureRefusal s with
    | some e => raise e s
    | none => recordLengths (probeBoth s).1 (probeBoth s).2)

end Sys2Proof.Machine
end

