-- ==== Sys2Proof/Machine/Shift.lean ====
section
/-! DEFINITION. The shift commands SHIFT_IR, SHIFT_DR, EXEC_IN_RESET (spec 42_shift_ops.md R141 to R151). -/

namespace Sys2Proof.Machine

/-- The level driven on data-in in cycle `i` of a scan (R141, R53): 0 for the `lead` fill cycles, then the operand's own
`W` bits least significant first, then 1. -/
def scanTdi (v : Word) (W lead i : Nat) : Level :=
  if i < lead then false else if i < lead + W then v.getLsbD (i - lead) else true

/-- Cycle `i` of a scan of `L` cycles (R141): sampled while `i < lead + W`, kept from `lead` on, `mode` high in the last. -/
def scanCycle (v : Word) (W lead L i : Nat) (rs : Word × State) : Word × State :=
  let c := shiftCycle (i + 1 == L) (scanTdi v W lead i) (decide (i < lead + W)) rs.2
  (match c.1 with
    | some b => if lead ≤ i then setBit rs.1 (i - lead) b else rs.1
    | none => rs.1, c.2)

/-- `scanShift(v, W, P, L)` (R141), entered in a Shift state with `P + W <= L`: exactly `L` cycles, `lead = L - P - W`. -/
def scanShift (v : Word) (W P L : Nat) (s : State) : Word × State :=
  forLoop (scanCycle v W (L - P - W) L) L 0 (0, s)

/-- The instruction shift of SHIFT_IR and EXEC_IN_RESET, once accepted (R145, R147). -/
def instructionShift (W : Nat) (v : Word) (s : State) : Word × State :=
  let r := scanShift v W s.params.irOffset (pathLen s.lenI s.params.irOffset W) (toShiftIR s)
  (r.1, exitToHome r.2)

/-- The data shift of SHIFT_DR, once accepted (R146). -/
def dataShift (W : Nat) (v : Word) (s : State) : Word × State :=
  let r := scanShift v W s.params.drOffset (pathLen s.lenD s.params.drOffset W) (toShiftDR s)
  (r.1, exitToHome r.2)

/-- SHIFT_IR width, value (R145). -/
def execShiftIr (width : BitVec 6) (value : Word) (s : State) : Host.Outcome State Fault Refusal :=
  .next (match shiftRefusal s.lenI s.params.irOffset width.toNat s with
    | some e => raise e s
    | none =>
      let r := instructionShift width.toNat value s
      respond .OK r.1 0 r.2)

/-- SHIFT_DR width, value (R146). -/
def execShiftDr (width : BitVec 6) (value : Word) (s : State) : Host.Outcome State Fault Refusal :=
  .next (match shiftRefusal s.lenD s.params.drOffset width.toNat s with
    | some e => raise e s
    | none =>
      let r := dataShift width.toNat value s
      respond .OK r.1 0 r.2)

/-- EXEC_IN_RESET width, value (R147): the preconditions are tested before the line moves; reset-request is low through
the whole instruction shift and released after it, with no wait. -/
def execExecInReset (width : BitVec 6) (value : Word) (s : State) : Host.Outcome State Fault Refusal :=
  .next (match shiftRefusal s.lenI s.params.irOffset width.toNat s with
    | some e => raise e s
    | none =>
      let r := instructionShift width.toNat value (wait .reset (setSignal .resetRequest false s))
      respond .OK r.1 0 (setSignal .resetRequest true r.2))

end Sys2Proof.Machine
end

