-- ==== Sys2Proof/Machine/Dispatch.lean ====
section
/-! DEFINITION. One arm per command (spec 30_encoding.md R70). -/

namespace Sys2Proof.Machine

def exec (i : Instr) (s : State) : Host.Outcome State Fault Refusal :=
  match i with
  | .openLink => Sys2Proof.Machine.execOpenLink s
  | .closeLink => Sys2Proof.Machine.execCloseLink s
  | .setsig sig level => Sys2Proof.Machine.execSetsig sig level s
  | .rdtdo => Sys2Proof.Machine.execRdtdo s
  | .connect => Sys2Proof.Machine.execConnect s
  | .shiftIr width value => Sys2Proof.Machine.execShiftIr width value s
  | .shiftDr width value => Sys2Proof.Machine.execShiftDr width value s
  | .measure => Sys2Proof.Machine.execMeasure s
  | .execInReset width value => Sys2Proof.Machine.execExecInReset width value s

end Sys2Proof.Machine
end

