-- ==== Sys2Proof/Machine/Fetch.lean ====
section
/-! DEFINITION. What one step does with the host's next act (spec 30_encoding.md R70, R77; 60_exceptions.md R173, R188;
70_reset_and_hazards.md R200). -/

namespace Sys2Proof.Machine

/-- A command word is decoded and run to its response; an illegal word is refused with `IllegalCommand` before anything
else is tested (R77, R173). -/
def runCommand (w : Command) (s : State) : Host.Outcome State Fault Refusal :=
  match decode w with
  | .ok i => exec i s
  | .error .noSuchOperation => .next (raise .IllegalCommand s)
  | .error .reservedBitSet => .next (raise .IllegalCommand s)

/-- One act of the host, taken off its list; with none TAPENG holds its latches and does nothing (R188, R200). -/
def runNextAct (s : State) : Host.Outcome State Fault Refusal :=
  match s.host with
  | [] => .next s
  | .command w :: rest => runCommand w (takeAct rest s)
  | .engineReset :: rest => .next (engineReset (takeAct rest s))

/-- The host issues next the word whose bits are `w` in the opcode table's numbering; bits above `nbits` are 0. -/
def issueTableWord (s : State) (nbits w : Nat) : State := issue (BitVec.ofNat 48 (w % 2 ^ nbits)) s

end Sys2Proof.Machine
end

