-- ==== Sys2Proof/Machine/Step.lean ====
section
/-! DEFINITION. One step of TAPENG: one act of the host, run to completion (spec 10_state.md R30). -/

namespace Sys2Proof.Machine

/-- One step: the host's next command from its word to its response, or an engine reset, or nothing (R30, R188, R200). -/
def step (s : State) : Host.Outcome State Fault Refusal := runNextAct s

/-- The state in which the host issues the word `w` next, so that the next step runs exactly it (log 2). -/
def State.withFetchWord (s : State) (nbits w : Nat) : State := issueTableWord s nbits w

end Sys2Proof.Machine
end

