-- ==== Sys2Proof/Machine/Assembler.lean ====
section
/-! DEFINITION. The assembler syntax and the pseudo-instructions (spec 30_encoding.md R81, R82, R84). Nothing of the
machine reads this file: it is how a host writes commands down. Details R81 leaves open are log 14. -/

namespace Sys2Proof.Machine

/-! ### Pseudo-instructions (R82) -/

/-- The source's calls that stand for one or more commands (R82). The symbolic codes JUMP_ZERO and IDCODE have no number
(R84): they are operands the host chooses. -/
inductive Pseudo where
  /-- `shiftInstruction(code)` with the width left out. -/
  | shiftInstruction (code : Word)
  /-- `executeInReset(code)`. -/
  | executeInReset (code : Word)
  /-- `RELEASE`: releases all reset-family signals. -/
  | release
  /-- `connect()`. -/
  | connect
  /-- `disconnect(leaveInDebug)`. -/
  | disconnect (leaveInDebug : Bool) (jumpZero idcode : Word)
deriving DecidableEq, Repr

/-- The default width of an instruction shift as an operand field (R5, R82). -/
def defaultWidth : BitVec 6 := BitVec.ofNat 6 Config.irWidthDefault

/-- `RELEASE` (R82): SETSIG reset-request, 1 then SETSIG trst, 1 (signal numbers by R76). -/
def releaseCommands : List Instr := [.setsig 3 true, .setsig 4 true]

/-- The expansion of a pseudo-instruction (R82). -/
def Pseudo.expand : Pseudo → List Instr
  | .shiftInstruction code => [.shiftIr defaultWidth code]
  | .executeInReset code => [.execInReset defaultWidth code]
  | .release => releaseCommands
  | .connect => [.connect]
  | .disconnect false jumpZero idcode =>
    [.setsig 3 false, .execInReset defaultWidth jumpZero, .shiftIr defaultWidth idcode] ++ releaseCommands ++ [.closeLink]
  | .disconnect true _ idcode => [.shiftIr defaultWidth idcode] ++ releaseCommands ++ [.closeLink]

/-! ### Reading a command (R81) -/

/-- The value of a digit in base 10 or 16. -/
def digitValue (base : Nat) (c : Char) : Option Nat :=
  let n :=
    if '0'.toNat ≤ c.toNat ∧ c.toNat ≤ '9'.toNat then c.toNat - '0'.toNat
    else if 'A'.toNat ≤ c.toNat ∧ c.toNat ≤ 'F'.toNat then c.toNat - 'A'.toNat + 10
    else if 'a'.toNat ≤ c.toNat ∧ c.toNat ≤ 'f'.toNat then c.toNat - 'a'.toNat + 10
    else base
  if n < base then some n else none

/-- The number a run of digits stands for, most significant digit first. -/
def readDigits (base : Nat) : Nat → List Char → Option Nat
  | n, [] => some n
  | n, c :: rest => (digitValue base c).bind (fun d => readDigits base (n * base + d) rest)

/-- A number: decimal, or hexadecimal with the prefix `0x` (R81). -/
def readNumber : List Char → Option Nat
  | [] => none
  | '0' :: 'x' :: rest => if rest = [] then none else readDigits 16 0 rest
  | c :: rest => readDigits 10 0 (c :: rest)

/-- A number that fits a field of `n` bits. -/
def readField (n : Nat) (cs : List Char) : Option (BitVec n) :=
  (readNumber cs).bind (fun v => if v < 2 ^ n then some (BitVec.ofNat n v) else none)

/-- The names of the signals in the order of their numbers (R76). -/
def signalNames : List (List Char) :=
  ["clock".toList, "mode".toList, "data-in".toList, "reset-request".toList, "trst".toList]

/-- `sig` is written by name or by number (R81). -/
def readSignal (cs : List Char) : Option (BitVec 3) :=
  match signalNames.findIdx? (· == cs) with
  | some k => some (BitVec.ofNat 3 k)
  | none => readField 3 cs

/-- `level` is 0 or 1. -/
def readLevel (cs : List Char) : Option Level := (readField 1 cs).map (fun b => b == 1)

/-- Blanks before and after a piece of text are dropped. -/
def trim (cs : List Char) : List Char :=
  ((cs.dropWhile (· = ' ')).reverse.dropWhile (· = ' ')).reverse

/-- Text cut at its commas. -/
def splitCommas : List Char → List (List Char)
  | [] => [[]]
  | c :: rest =>
    match splitCommas rest with
    | [] => [[c]]
    | first :: more => if c = ',' then [] :: first :: more else (c :: first) :: more

/-- The operands of a command, separated by commas (R81), without the blanks around them. -/
def readOperands (cs : List Char) : List (List Char) := (splitCommas cs).map trim

/-- The operands of a shift command: width first, then value (R81). -/
def readShift (make : BitVec 6 → Word → Instr) : List (List Char) → Option Instr
  | [w, v] => (readField 6 w).bind (fun width => (readField 32 v).map (fun value => make width value))
  | _ => none

/-- The operands of SETSIG (R81). -/
def readSetsig : List (List Char) → Option Instr
  | [s, l] => (readSignal s).bind (fun sig => (readLevel l).map (fun level => .setsig sig level))
  | _ => none

/-- A command without operands. -/
def readPlain (i : Instr) (operands : List Char) : Option Instr :=
  if trim operands = [] then some i else none

/-- A command from its mnemonic and the text of its operands (R81). DESIGN CHOICE, safe: only the nine mnemonics with all
their operands are read. Neither R81 nor R82 says whether a line of text may be a pseudo-instruction (`RELEASE`, a shift
with its width left out); here it is no command, and `Pseudo` holds those instead (log 14). -/
def readCommand (mnemonic operands : List Char) : Option Instr :=
  if mnemonic = "OPEN".toList then readPlain .openLink operands
  else if mnemonic = "CLOSE".toList then readPlain .closeLink operands
  else if mnemonic = "SETSIG".toList then readSetsig (readOperands operands)
  else if mnemonic = "RDTDO".toList then readPlain .rdtdo operands
  else if mnemonic = "CONNECT".toList then readPlain .connect operands
  else if mnemonic = "SHIFT_IR".toList then readShift .shiftIr (readOperands operands)
  else if mnemonic = "SHIFT_DR".toList then readShift .shiftDr (readOperands operands)
  else if mnemonic = "MEASURE".toList then readPlain .measure operands
  else if mnemonic = "EXEC_IN_RESET".toList then readShift .execInReset (readOperands operands)
  else none

/-- A command as text: its mnemonic followed by its operands in the order of R70, separated by commas (R81). -/
def assemble (text : List Char) : Option Instr :=
  readCommand (text.takeWhile (· ≠ ' ')) (text.dropWhile (· ≠ ' '))

/-- The command word of a line of text (R71, R81). -/
def assembleWord (text : List Char) : Option Command := (assemble text).map encode

/-! ### Writing a command (R81) -/

/-- A hexadecimal digit. -/
def hexDigit (d : Nat) : Char :=
  if d < 10 then Char.ofNat ('0'.toNat + d) else Char.ofNat ('A'.toNat + (d - 10))

/-- `k` hexadecimal digits of `n`, most significant first. -/
def hexDigits : Nat → Nat → List Char
  | 0, _ => []
  | k + 1, n => hexDigits k (n / 16) ++ [hexDigit (n % 16)]

/-- A number with the prefix `0x` and `k` digits (R81). -/
def hexNumber (k n : Nat) : List Char := '0' :: 'x' :: hexDigits k n

/-- A signal by its name where it has one, else by its number (R76, R81). -/
def signalText (sig : BitVec 3) : List Char :=
  match signalNames[sig.toNat]? with
  | some name => name
  | none => hexNumber 1 sig.toNat

/-- The text of a shift command. -/
def shiftText (mnemonic : List Char) (width : BitVec 6) (value : Word) : List Char :=
  mnemonic ++ ' ' :: (hexNumber 2 width.toNat ++ ',' :: ' ' :: hexNumber 8 value.toNat)

/-- The text of a command (R81). -/
def commandText : Instr → List Char
  | .openLink => "OPEN".toList
  | .closeLink => "CLOSE".toList
  | .setsig sig level =>
    "SETSIG".toList ++ ' ' :: (signalText sig ++ ',' :: ' ' :: hexNumber 1 level.toNat)
  | .rdtdo => "RDTDO".toList
  | .connect => "CONNECT".toList
  | .shiftIr width value => shiftText "SHIFT_IR".toList width value
  | .shiftDr width value => shiftText "SHIFT_DR".toList width value
  | .measure => "MEASURE".toList
  | .execInReset width value => shiftText "EXEC_IN_RESET".toList width value

end Sys2Proof.Machine
end

