-- ==== Sys2Proof/Machine/Traces.lean ====
section
/-! DEFINITION. Link traces written down as lists (spec 00_scope.md R10): what the commands of 41_tap_state_machine.md,
42_shift_ops.md and 43_measure.md put on the wires, as whole lists of events and not as the sequences of actions the
meanings take; and what claims count in a trace. No meaning reads this file. -/

namespace Sys2Proof.Machine

/-! ### The environment's answers (R9, R23; log 6, log 7) -/

/-- The level the environment answers to the `k`-th sample from state `s` on, counting from 0. -/
def answerAt (s : State) (k : Nat) : Level :=
  s.samples.getD k (Config.freeSample (s.drawn + (k - s.samples.length)))

/-- The environment's next `n` answers. -/
def answersOf (s : State) (n : Nat) : List Level := (List.range n).map (answerAt s)

/-- The state after `n` answers have been taken. -/
def consume (n : Nat) (s : State) : State :=
  { s with samples := s.samples.drop n, drawn := s.drawn + (n - s.samples.length) }

/-- What running a sequence at the pins does to the state and all it does: the latches end at `o`, the tracked machine at
`x`, the trace grows by `events`, `n` answers of the environment are taken, and EVERY other field stays. -/
def moved (o : Latches) (x : Tap) (events : List Event) (n : Nat) (s : State) : State :=
  { consume n s with out := o, tap := x, trace := s.trace ++ events }

/-- The environment's answer to the next OPEN (R92). -/
def nextAnswer (s : State) : OpenAnswer := s.answers.headD (Config.freeAnswer s.asked)

/-- The state after OPEN's question has been answered. -/
def consumeAnswer (s : State) : State :=
  { s with answers := s.answers.tail, asked := s.asked + (1 - s.answers.length) }

/-! ### Cycles and walks (R116 to R120) -/

/-- The events of one clock pulse (R116). -/
def pulseEvents : List Event := [.set .clock true, .wait .pulse, .set .clock false, .wait .pulse]

/-- The event of a sample, if one is taken. -/
def sampleEvents : Option Level → List Event
  | some b => [.sample b]
  | none => []

/-- The events of `shiftCycle(tms, tdi, sample)` that sampled `b` (R117). -/
def shiftEvents (tms tdi : Level) (b : Option Level) : List Event :=
  [.set .dataIn tdi, .set .mode tms, .wait .settle] ++ sampleEvents b ++ pulseEvents

/-- The events of `navCycle(tms)` (R118). -/
def navEvents (tms : Level) : List Event := [.set .mode tms, .wait .settle] ++ pulseEvents

/-- The events of a walk, given by the mode levels of its cycles (R120). -/
def walkEvents (tms : List Level) : List Event := tms.flatMap navEvents

/-! ### CONNECT (R121, vector V8) -/

/-- The events of CONNECT. -/
def connectEvents : List Event :=
  [.set .clock false, .set .mode true, .set .dataIn false, .set .resetRequest true, .set .trst true, .wait .settle]
    ++ walkEvents [true, true, true, true, true]
    ++ [.set .trst false, .set .resetRequest false, .wait .reset, .set .trst true, .set .resetRequest true, .wait .reset]
    ++ walkEvents [true, true, true, true, true, false, true]

/-! ### Scans (R53, R141, R151) -/

/-- The low `W` bits of `v`, least significant first (R8). -/
def lowBits (v : Word) (W : Nat) : List Level := (List.range W).map v.getLsbD

/-- What a scan of `L` cycles drives on data-in, in time order (R53): `L-P-W` zeros, the operand's bits, `P` ones. -/
def drivenBits (v : Word) (W P L : Nat) : List Level :=
  List.replicate (L - P - W) false ++ lowBits v W ++ List.replicate P true

/-- The events of a scan that drives `driven` and samples `sampled` in its first cycles; `mode` is 1 in the last cycle
only (R141). -/
def scanEvents (driven sampled : List Level) : List Event :=
  (List.range driven.length).flatMap
    (fun i => shiftEvents (decide (i + 1 = driven.length)) (driven.getD i false) sampled[i]?)

/-- The number whose bits are `bits`, least significant first (R8, R52). -/
def wordOf : List Level → Word
  | [] => 0
  | b :: rest => (wordOf rest <<< 1) ||| levelWord b

/-- The events of a shift that walks in by `walk` (R145, R146): in, scan, home. -/
def shiftTrace (walk : List Level) (v : Word) (W P L : Nat) (sampled : List Level) : List Event :=
  walkEvents walk ++ scanEvents (drivenBits v W P L) sampled ++ walkEvents [true, true]

/-- The level data-in is left at by a shift (R145): 1 if `P > 0`, else the operand's last bit. -/
def lastDriven (v : Word) (W P : Nat) : Level := if 0 < P then true else v.getLsbD (W - 1)

/-! ### Probes (R161) -/

/-- The events of the probe's sampling loop when the answers it took are `bits` (R161). -/
def probingEvents : List Level → List Event
  | [] => []
  | [b] => [.wait .settle, .sample b]
  | b :: rest => [.wait .settle, .sample b] ++ navEvents false ++ probingEvents rest

/-- The result of a probe whose coming answers are `bits`: the number of the first answer 0, counting from 1, or
Overflow when there is none (R161, R163). -/
def probeResult (bits : List Level) : Option Nat := (bits.findIdx? (· == false)).map (· + 1)

/-- The number of samples a probe takes: its result, or `MAX_PROBE` on Overflow (R166). -/
def probeSamples (maxProbe : Nat) (result : Option Nat) : Nat := result.getD maxProbe

/-- The events of a probe that walks in by `walk` and takes the answers `bits` (R161). -/
def probeTrace (walk : List Level) (maxProbe : Nat) (bits : List Level) : List Event :=
  walkEvents walk
    ++ (List.replicate maxProbe (shiftEvents false true none)).flatten
    ++ shiftEvents false false none ++ [.set .dataIn true]
    ++ probingEvents bits
    ++ shiftEvents true true none ++ walkEvents [true, true]

/-! ### What claims count in a trace -/

/-- The number of clock pulses: each raises the clock once. -/
def clockPulses (events : List Event) : Nat := events.count (.set .clock true)

/-- The levels sampled, in order. -/
def sampledLevels (events : List Event) : List Level :=
  events.filterMap (fun e => match e with
    | .sample b => some b
    | .set _ _ => none
    | .wait _ => none)

/-- The least time a trace takes, in nanoseconds (R213: every duration is a lower bound). -/
def leastDuration (events : List Event) : Nat :=
  (events.map (fun e => match e with
    | .wait t => Config.leastTime t
    | .set _ _ => 0
    | .sample _ => 0)).sum

/-- Every sample has a `Wait(T_SETTLE)` after the last pin write before it (R205). The flag says whether one has elapsed
since the last write. -/
def sampleSettled : Bool → List Event → Bool
  | _, [] => true
  | _, .set _ _ :: rest => sampleSettled false rest
  | settled, .wait t :: rest => sampleSettled (settled || t == .settle) rest
  | settled, .sample _ :: rest => settled && sampleSettled settled rest

/-- Every rising clock write has a `Wait(T_SETTLE)` after the last write of `mode` or `data-in` before it (R206). -/
def edgeSettled : Bool → List Event → Bool
  | _, [] => true
  | _, .set .mode _ :: rest => edgeSettled false rest
  | _, .set .dataIn _ :: rest => edgeSettled false rest
  | settled, .set .clock v :: rest => (!v || settled) && edgeSettled settled rest
  | settled, .set .resetRequest _ :: rest => edgeSettled settled rest
  | settled, .set .trst _ :: rest => edgeSettled settled rest
  | settled, .wait t :: rest => edgeSettled (settled || t == .settle) rest
  | settled, .sample _ :: rest => edgeSettled settled rest

end Sys2Proof.Machine
end

