-- ==== Sys2Proof/Machine/Reference.lean ====
section
/-! DEFINITION. The far side of the wires, for the claims that speak of it: a standard target with a reference scan path
on each side (spec 20_memory.md R51, 10_state.md R24, 41_tap_state_machine.md R123). It is an ASSUMPTION about the
environment (K2, K3, K6; log 15): no meaning of TAPENG reads this file, and the claims that do say so. -/

namespace Sys2Proof.Machine

/-- The port as seen from its wires: the levels on the five lines and the state of a standard machine on it (R24 a). -/
structure Port where
  out : Latches
  tap : Tap
deriving DecidableEq, Repr

/-- TAPENG's own pins and record of the state machine. -/
def State.port (s : State) : Port := { out := s.out, tap := s.tap }

/-- The state of a standard machine after a line changes: it moves at a rising clock edge by the `mode` level on the
wire, and `trst` low holds it in TestLogicReset (R25, R26, R110). -/
def Port.tapAfter (p : Port) : Signal → Level → Tap
  | .clock, true =>
    if p.out.clock then p.tap else if p.out.trst then tapNext p.tap p.out.mode else .TestLogicReset
  | .clock, false => p.tap
  | .trst, true => p.tap
  | .trst, false => .TestLogicReset
  | .mode, _ => p.tap
  | .dataIn, _ => p.tap
  | .resetRequest, _ => p.tap

/-- What an event of the link trace does at the port. -/
def Port.see (p : Port) : Event → Port
  | .set sig v => { out := p.out.set sig v, tap := p.tapAfter sig v }
  | .sample _ => p
  | .wait _ => p

/-- A target: what it sees of the port, whether its `trst` is wired (R202), the stages of its two scan paths, stage 0
nearest data-out, and what the next Capture loads into each (R51, R123). -/
structure Target where
  port : Port
  trstWired : Bool
  irStages : List Level
  drStages : List Level
  irCapture : List Level
  drCapture : List Level
deriving DecidableEq, Repr

/-- One stage towards data-out, taking `tdi` in at the far end (R51). -/
def shiftStages (stages : List Level) (tdi : Level) : List Level :=
  match stages with
  | [] => []
  | _ :: rest => rest ++ [tdi]

/-- A target whose machine moves from its state to `next` at a clock edge: the edge that enters a Capture state loads the
path, an edge taken in a Shift state shifts it (R51). -/
def Target.clocked (t : Target) (next : Tap) : Target :=
  { t with
    irStages :=
      if next = .CaptureIR then t.irCapture
      else if t.port.tap = .ShiftIR then shiftStages t.irStages t.port.out.dataIn else t.irStages
    drStages :=
      if next = .CaptureDR then t.drCapture
      else if t.port.tap = .ShiftDR then shiftStages t.drStages t.port.out.dataIn else t.drStages }

/-- What an event does at a target. A write of `trst` does not reach a target whose `trst` is not wired (R202). -/
def Target.see (t : Target) : Event → Target
  | .set .trst v => if t.trstWired then { t with port := t.port.see (.set .trst v) } else t
  | .set .clock true =>
    let moved := if t.port.out.clock then t else t.clocked (t.port.tapAfter .clock true)
    { moved with port := t.port.see (.set .clock true) }
  | .set .clock false => { t with port := t.port.see (.set .clock false) }
  | .set .mode v => { t with port := t.port.see (.set .mode v) }
  | .set .dataIn v => { t with port := t.port.see (.set .dataIn v) }
  | .set .resetRequest v => { t with port := t.port.see (.set .resetRequest v) }
  | .sample _ => t
  | .wait _ => t

/-- A target after a trace. -/
def Target.after (t : Target) (events : List Event) : Target := events.foldl Target.see t

/-- What data-out carries (R51): stage 0 of the path in a Shift state; outside them the level is open (U8). -/
def Target.dataOut (t : Target) : Option Level :=
  match t.port.tap with
  | .ShiftIR => t.irStages.head?
  | .ShiftDR => t.drStages.head?
  | .TestLogicReset => none
  | .RunTestIdle => none
  | .SelectDRScan => none
  | .CaptureDR => none
  | .Exit1DR => none
  | .PauseDR => none
  | .Exit2DR => none
  | .UpdateDR => none
  | .SelectIRScan => none
  | .CaptureIR => none
  | .Exit1IR => none
  | .PauseIR => none
  | .Exit2IR => none
  | .UpdateIR => none

/-- A sampled level is one the target can have answered. -/
def Target.mayAnswer (t : Target) (b : Level) : Bool :=
  match t.dataOut with
  | some d => d == b
  | none => true

/-- Every sample of the trace is what this target drives on data-out at that moment. -/
def Target.answers (t : Target) : List Event → Bool
  | [] => true
  | .sample b :: rest => t.mayAnswer b && t.answers rest
  | .set sig v :: rest => (t.see (.set sig v)).answers rest
  | .wait d :: rest => (t.see (.wait d)).answers rest

/-- TAPENG and the target have been brought together (R24 b): the wires are TAPENG's and the two machines agree. -/
def Target.together (t : Target) (s : State) : Bool := t.port == s.port

end Sys2Proof.Machine
end

