-- ==== Sys2Proof/WellFormed.lean ====
section
/-! DEFINITION. Which commands have legal operands (spec 30_encoding.md R73, R76; 20_memory.md R55). A command that is
not well formed still has a word and a meaning: it is refused with BadSignal or BadWidth when it runs (R95, R143). -/

namespace Sys2Proof

/-- R76: 0 to 4 name a signal, 5, 6 and 7 name none. -/
def legalSignal (sig : BitVec 3) : Bool := decide (sig.toNat ≤ 4)

/-- R55, R73: the legal widths are 1 to 32. -/
def legalWidth (width : BitVec 6) : Bool := decide (1 ≤ width.toNat ∧ width.toNat ≤ Config.maxWidth)

/-- The operands of a command are legal. -/
def Instr.wellFormed : Instr → Bool
  | .openLink => true
  | .closeLink => true
  | .setsig sig _ => legalSignal sig
  | .rdtdo => true
  | .connect => true
  | .shiftIr width _ => legalWidth width
  | .shiftDr width _ => legalWidth width
  | .measure => true
  | .execInReset width _ => legalWidth width

end Sys2Proof
end

