-- ==== Sys2Proof/Safety.lean ====
section
/-! DEFINITION. What claims speak of beside the machine: the invariant of the state, how an outcome is classed, and the
running of several commands in order. -/

namespace Sys2Proof.Machine

/-- The invariant of every reachable state: R5 (`MAX_PROBE` at least 1), R27 (`trst` low implies TestLogicReset), R28
(the lengths are at most `MAX_PROBE`), R164 (the two lengths are from the same measurement: both 0 or neither). -/
def State.inv (s : State) : Prop :=
  s.params.wf
    ∧ (s.out.trst = false → s.tap = .TestLogicReset)
    ∧ s.lenI ≤ s.params.maxProbe
    ∧ s.lenD ≤ s.params.maxProbe
    ∧ (s.lenI = 0 ↔ s.lenD = 0)

/-- A status that is a refusal in the sense of R170: the command did nothing. -/
def Status.isRefusal : Status → Bool
  | .OK => false
  | .Overflow => false
  | .AdapterNotFound => false
  | .AdapterBusy => false
  | .LinkNotOpen => true
  | .LinkAlreadyOpen => true
  | .IllegalCommand => true
  | .BadSignal => true
  | .BadWidth => true
  | .NotHome => true
  | .ShiftTooWide => true
  | .LinkFailed => true

end Sys2Proof.Machine

namespace Sys2Proof

open Sys2Proof.Machine

/-- The commands that start and end in the home state (R115). -/
def Instr.needsHome : Instr → Bool
  | .openLink => false
  | .closeLink => false
  | .setsig _ _ => false
  | .rdtdo => false
  | .connect => false
  | .shiftIr _ _ => true
  | .shiftDr _ _ => true
  | .measure => true
  | .execInReset _ _ => true

/-- The shift commands: their width, and the offset and length of the path they shift. -/
def Instr.shiftOf (s : State) : Instr → Option (Nat × Nat × Nat)
  | .openLink => none
  | .closeLink => none
  | .setsig _ _ => none
  | .rdtdo => none
  | .connect => none
  | .shiftIr width _ => some (width.toNat, s.params.irOffset, s.lenI)
  | .shiftDr width _ => some (width.toNat, s.params.drOffset, s.lenD)
  | .measure => none
  | .execInReset width _ => some (width.toNat, s.params.irOffset, s.lenI)

end Sys2Proof

namespace Sys2Proof.Machine

/-- The state a response `(status, 0, 0)` leaves when nothing else is written (R171). -/
def answered (status : Status) (s : State) : State := { s with response := some { status := status, r0 := 0, r1 := 0 } }

/-- The command `i` is refused by the link and does nothing (R90, R121, R145, R160): `LinkFailed` while `link = Failed`,
`LinkNotOpen` while `link = Closed`. -/
def LinkStops (i : Instr) : Prop :=
  ∀ s : State,
    (s.link = .Failed → exec i s = .next (answered .LinkFailed s))
      ∧ (s.link = .Closed → exec i s = .next (answered .LinkNotOpen s))

/-- The shift command `i` of width `W` on a path with offset `P s` and length register `len s` is refused in order (R145 to
R147, R176): by the link, then by its width, then away from the home state, then when it does not fit. -/
def ShiftStops (i : Instr) (W : Nat) (P len : State → Nat) : Prop :=
  LinkStops i
    ∧ ∀ s : State, s.link = .Open →
      ((W = 0 ∨ 32 < W) → exec i s = .next (answered .BadWidth s))
      ∧ (1 ≤ W → W ≤ 32 → ¬(s.tap = .SelectDRScan ∧ s.out.clock = false ∧ s.out.trst = true) →
          exec i s = .next (answered .NotHome s))
      ∧ (1 ≤ W → W ≤ 32 → s.tap = .SelectDRScan → s.out.clock = false → s.out.trst = true → len s ≠ 0 →
          len s < P s + W → exec i s = .next (answered .ShiftTooWide s))

/-- Commands issued one after the other, each waiting for the response of the one before (R70). -/
def execAll : List Instr → State → Host.Outcome State Fault Refusal
  | [], s => .next s
  | i :: rest, s =>
    match exec i s with
    | .next t => execAll rest t
    | .fault r => .fault r
    | .refused r => .refused r

end Sys2Proof.Machine
end

