-- ==== Sys2Proof/Certificates/Slice0/Obligations.lean ====
section
/-! DEFINITION. The statements for the provers. A docstring names the rule of spec/ a statement formalises; where a clause
rests on the model's own choice it names the log entry. -/

open Sys2Proof Sys2Proof.Machine

/-! ## Words and commands -/

/-- Decoding the word of a command gives the command back, at every value of every operand field
(30_encoding.md R71, R72, R74). -/
def Obligations.DecodeOfEncode : Prop := ∀ i : Instr, decode (encode i) = .ok i

/-- A word that decodes is the one word of its command: no two words mean the same (30_encoding.md R71, R77). -/
def Obligations.EncodeOfDecode : Prop := ∀ (w : Command) (i : Instr), decode w = .ok i → encode i = w

/-- The decoder and the match and mask table agree, and the nine rows are disjoint (30_encoding.md R75). -/
def Obligations.DecodeAgreesWithTheOpcodeTable : Prop :=
  (∀ (w : Command) (i : Instr), decode w = .ok i → i.row ∈ rows ∧ i.row.selects w = true)
    ∧ (∀ (w : Command) (r : Row), r ∈ rows → r.selects w = true → ∃ i, decode w = .ok i ∧ i.row = r)
    ∧ (∀ (w : Command) (r q : Row), r ∈ rows → q ∈ rows → r.selects w = true → q.selects w = true → r = q)

/-- Words written out in the spec (95_test_vectors.md V13) decode to the commands they stand for, and its illegal words
to none. -/
def Obligations.WordsOfTheVectorsDecode : Prop :=
  decode 0x010000000000 = .ok .openLink
    ∧ decode 0x020000000000 = .ok .closeLink
    ∧ decode 0x030300000000 = .ok (.setsig 3 false)
    ∧ decode 0x030500000000 = .ok (.setsig 5 false)
    ∧ decode 0x040000000000 = .ok .rdtdo
    ∧ decode 0x050000000000 = .ok .connect
    ∧ decode 0x060400000002 = .ok (.shiftIr 4 0x2)
    ∧ decode 0x0720FFFFFFFF = .ok (.shiftDr 32 0xFFFFFFFF)
    ∧ decode 0x073F00000000 = .ok (.shiftDr 63 0)
    ∧ decode 0x080000000000 = .ok .measure
    ∧ decode 0x090400000005 = .ok (.execInReset 4 0x5)
    ∧ decode 0x000000000000 = .error .noSuchOperation
    ∧ decode 0x0A0000000000 = .error .noSuchOperation
    ∧ decode 0x100000000000 = .error .noSuchOperation
    ∧ decode 0x064400000002 = .error .reservedBitSet
    ∧ decode 0x030000000002 = .error .reservedBitSet

/-- A word that matches no row is refused with IllegalCommand in every state, before the link is looked at; nothing else
changes. The all-zero word is one; a SETSIG word with `sig` 5, 6 or 7 is not (30_encoding.md R77, 60_exceptions.md R173). -/
def Obligations.IllegalWordIsRefusedFirst : Prop :=
  (∀ (s : State) (w : Command) (rest : List HostAct), s.host = .command w :: rest →
      (∀ r ∈ rows, r.selects w = false) →
      step s = .next (answered .IllegalCommand { s with host := rest }))
    ∧ (∀ r ∈ rows, r.selects 0 = false)
    ∧ (∀ (sig : BitVec 3) (level : Level), 5 ≤ sig.toNat → decode (encode (.setsig sig level)) = .ok (.setsig sig level))

/-- A command written as text (30_encoding.md R81; details log 14) reads back as the command. -/
def Obligations.AssembleOfCommandText : Prop := ∀ i : Instr, assemble (commandText i) = some i

/-- The pseudo-instructions expand to the commands of the table of 30_encoding.md R82, written as words; `code`, `jumpZero`
and `idcode` are the host's (R84). -/
def Obligations.PseudoInstructionsExpand : Prop :=
  ∀ code jumpZero idcode : Word,
    (Pseudo.shiftInstruction code).expand = [.shiftIr 4 code]
      ∧ (Pseudo.executeInReset code).expand = [.execInReset 4 code]
      ∧ Pseudo.release.expand.map encode = [0x030300000001, 0x030400000001]
      ∧ Pseudo.connect.expand.map encode = [0x050000000000]
      ∧ (Pseudo.disconnect false jumpZero idcode).expand.map encode =
          [0x030300000000, encode (.execInReset 4 jumpZero), encode (.shiftIr 4 idcode), 0x030300000001, 0x030400000001,
            0x020000000000]
      ∧ (Pseudo.disconnect true jumpZero idcode).expand.map encode =
          [encode (.shiftIr 4 idcode), 0x030300000001, 0x030400000001, 0x020000000000]

/-- The numbers of the statuses (30_encoding.md R79): 0 to 11 as listed, and no status has a number from 12 to 15. -/
def Obligations.StatusNumbersAreAsListed : Prop :=
  [Status.OK, .Overflow, .AdapterNotFound, .AdapterBusy, .LinkNotOpen, .LinkAlreadyOpen, .IllegalCommand, .BadSignal,
      .BadWidth, .NotHome, .ShiftTooWide, .LinkFailed].map Status.code = [0, 1, 2, 3, 4, 5, 6, 7, 8, 9, 10, 11]
    ∧ ∀ e : Status, e.code.toNat < 12

/-! ## Steps and reset -/

/-- When the host's next act is a word that decodes to `i`, the step is `exec i` with that word taken off the list, and
nothing else around it (10_state.md R30, 30_encoding.md R70). -/
def Obligations.StepRunsTheDecodedCommand : Prop :=
  ∀ (s : State) (w : Command) (rest : List HostAct) (i : Instr),
    s.host = .command w :: rest → decode w = .ok i → step s = exec i { s with host := rest }

/-- With no command issued TAPENG holds its latches and does nothing (60_exceptions.md R188). -/
def Obligations.IdleStepChangesNothing : Prop := ∀ s : State, s.host = [] → step s = .next s

/-- The five latches reset to the idle pattern (10_state.md R22); `link`, `tap` and the two lengths to the values of the
reset column of R20. -/
def Obligations.ResetLeavesTheStatedValues : Prop :=
  State.reset.out.clock = false ∧ State.reset.out.mode = true ∧ State.reset.out.dataIn = false
    ∧ State.reset.out.resetRequest = true ∧ State.reset.out.trst = true
    ∧ State.reset.link = .Closed ∧ State.reset.tap = .TestLogicReset
    ∧ State.reset.lenI = 0 ∧ State.reset.lenD = 0

/-- Engine reset (70_reset_and_hazards.md R200): every item at its reset value, no event; nothing else leaves
`link = Failed`; after reset TAPENG waits for its first command. That a reset lands between commands and leaves what is
outside TAPENG alone is the model's reading (log 12). -/
def Obligations.EngineResetRestoresEveryItem : Prop :=
  (∀ (s : State) (rest : List HostAct), s.host = .engineReset :: rest →
      step s = .next { s with
        link := .Closed
        out := { clock := false, mode := true, dataIn := false, resetRequest := true, trst := true }
        tap := .TestLogicReset
        lenI := 0
        lenD := 0
        host := rest })
    ∧ (∀ s : State, s.link = .Failed → (∀ rest, s.host ≠ .engineReset :: rest) →
        ∃ t, step s = .next t ∧ t.link = .Failed)
    ∧ step State.reset = .next State.reset

/-! ## Link driver -/

/-- OPEN (40_link_ops.md R91): the two refusals, the three answers of the environment (R92), and with each everything
that changes; no command leaves `Failed`; after CLOSE a link can be asked for again. The answer is the environment's next
one (log 7). -/
def Obligations.OpenAcquiresTheLink : Prop :=
  encode .openLink = 0x010000000000
    ∧ (∀ (i : Instr) (s : State), s.link = .Failed → ∃ t, exec i s = .next t ∧ t.link = .Failed)
    ∧ (∀ s : State, s.link = .Open → ∃ t, exec .closeLink s = .next t ∧ t.link = .Closed)
    ∧ ∀ s : State,
      (s.link = .Failed → exec .openLink s = .next (answered .LinkFailed s))
      ∧ (s.link = .Open → exec .openLink s = .next (answered .LinkAlreadyOpen s))
      ∧ (s.link = .Closed → nextAnswer s = .NotFound →
          exec .openLink s = .next (answered .AdapterNotFound { consumeAnswer s with link := .Failed }))
      ∧ (s.link = .Closed → nextAnswer s = .Busy →
          exec .openLink s = .next (answered .AdapterBusy { consumeAnswer s with link := .Failed }))
      ∧ (s.link = .Closed → nextAnswer s = .Found →
          exec .openLink s = .next (answered .OK { consumeAnswer s with
            link := .Open
            out := { clock := false, mode := true, dataIn := false, resetRequest := true, trst := true }
            trace := s.trace ++
              [.set .clock false, .set .mode true, .set .dataIn false, .set .resetRequest true, .set .trst true] }))

/-- CLOSE (40_link_ops.md R93): always OK, only `link` written, no event, the wires no longer driven, idempotent. -/
def Obligations.CloseReleasesTheLink : Prop :=
  encode .closeLink = 0x020000000000
    ∧ (∀ s : State, exec .closeLink s =
        .next (answered .OK { s with link := if s.link = .Failed then .Failed else .Closed }))
    ∧ (∀ s : State, execAll [.closeLink, .closeLink] s = exec .closeLink s)
    ∧ (∀ (s t : State) (x : Signal), exec .closeLink s = .next t → wire t x = none)

/-- SETSIG (40_link_ops.md R94, R95, R97; numbers R76): refusals, and for each of the five signals the latch, the event
and the tracked machine; everything else stays, and a latch write changes the one latch. -/
def Obligations.SetsigDrivesOneSignal : Prop :=
  (∀ (sig : BitVec 3) (level : Level), LinkStops (.setsig sig level)
      ∧ opField (encode (.setsig sig level)) = 3 ∧ sigField (encode (.setsig sig level)) = sig
      ∧ levelField (encode (.setsig sig level)) = level ∧ reservedClearL (encode (.setsig sig level)) = true)
    ∧ (∀ (s : State) (sig : BitVec 3) (level : Level), s.link = .Open → 5 ≤ sig.toNat →
        exec (.setsig sig level) s = .next (answered .BadSignal s))
    ∧ (∀ (s : State) (level : Level), s.link = .Open →
        exec (.setsig 0 level) s = .next (answered .OK { s with
          out := { s.out with clock := level }
          tap :=
            if s.out.clock = false ∧ level = true then
              if s.out.trst = false then .TestLogicReset else tapNext s.tap s.out.mode
            else s.tap
          trace := s.trace ++ [.set .clock level] })
        ∧ exec (.setsig 1 level) s = .next (answered .OK { s with
          out := { s.out with mode := level }, trace := s.trace ++ [.set .mode level] })
        ∧ exec (.setsig 2 level) s = .next (answered .OK { s with
          out := { s.out with dataIn := level }, trace := s.trace ++ [.set .dataIn level] })
        ∧ exec (.setsig 3 level) s = .next (answered .OK { s with
          out := { s.out with resetRequest := level }, trace := s.trace ++ [.set .resetRequest level] })
        ∧ exec (.setsig 4 level) s = .next (answered .OK { s with
          out := { s.out with trst := level }
          tap := if level = false then .TestLogicReset else s.tap
          trace := s.trace ++ [.set .trst level] }))

/-- RDTDO (40_link_ops.md R96, R98): one settle wait, one sample of the environment's next answer (log 6), the level as
result, and nothing else changes. -/
def Obligations.RdtdoSamplesTheLine : Prop :=
  encode .rdtdo = 0x040000000000
    ∧ LinkStops .rdtdo
    ∧ ∀ s : State, s.link = .Open →
      exec .rdtdo s = .next { consume 1 s with
        trace := s.trace ++ [.wait .settle, .sample (answerAt s 0)]
        response := some { status := .OK, r0 := if answerAt s 0 then 1 else 0, r1 := 0 } }

/-- SETSIG and RDTDO need `link = Open` and nothing of the state machine (40_link_ops.md R90): closed or failed they are
refused, open they answer OK in every state of `tap` and of the latches. -/
def Obligations.RawAccessNeedsTheLinkOnly : Prop :=
  (∀ (sig : BitVec 3) (level : Level), LinkStops (.setsig sig level)) ∧ LinkStops .rdtdo
    ∧ (∀ (s : State) (sig : BitVec 3) (level : Level), s.link = .Open → sig.toNat ≤ 4 →
        ∃ t, exec (.setsig sig level) s = .next t ∧ t.response = some { status := .OK, r0 := 0, r1 := 0 })
    ∧ (∀ s : State, s.link = .Open →
        ∃ t b, exec .rdtdo s = .next t ∧ t.response = some { status := .OK, r0 := b, r1 := 0 })

/-! ## The state machine of the port -/

/-- The transitions the source gives (41_tap_state_machine.md R111), each at the rising edge a host makes by
`SETSIG clock, 1`. -/
def Obligations.SourceTransitionsOfTheStateMachine : Prop :=
  ∀ e ∈ [(Tap.TestLogicReset, false, Tap.RunTestIdle), (.RunTestIdle, true, .SelectDRScan),
      (.SelectDRScan, false, .CaptureDR), (.CaptureDR, false, .ShiftDR), (.ShiftDR, false, .ShiftDR),
      (.ShiftDR, true, .Exit1DR), (.Exit1DR, true, .UpdateDR), (.UpdateDR, true, .SelectDRScan),
      (.SelectDRScan, true, .SelectIRScan), (.SelectIRScan, false, .CaptureIR), (.CaptureIR, false, .ShiftIR),
      (.ShiftIR, false, .ShiftIR), (.ShiftIR, true, .Exit1IR), (.Exit1IR, true, .UpdateIR),
      (.UpdateIR, true, .SelectDRScan)],
    ∀ s : State, s.link = .Open → s.out.clock = false → s.out.trst = true → s.tap = e.1 → s.out.mode = e.2.1 →
      ∃ t, exec (.setsig 0 true) s = .next t ∧ t.tap = e.2.2

/-- The transitions the spec supplies from general knowledge (the entries marked G of 41_tap_state_machine.md section 1,
93_implementation_defined.md K1; log 10), each at a rising edge made by `SETSIG clock, 1`. -/
def Obligations.SuppliedTransitionsOfTheStateMachine : Prop :=
  ∀ e ∈ [(Tap.TestLogicReset, true, Tap.TestLogicReset), (.RunTestIdle, false, .RunTestIdle),
      (.CaptureDR, true, .Exit1DR), (.Exit1DR, false, .PauseDR), (.PauseDR, false, .PauseDR),
      (.PauseDR, true, .Exit2DR), (.Exit2DR, false, .ShiftDR), (.Exit2DR, true, .UpdateDR),
      (.UpdateDR, false, .RunTestIdle), (.SelectIRScan, true, .TestLogicReset), (.CaptureIR, true, .Exit1IR),
      (.Exit1IR, false, .PauseIR), (.PauseIR, false, .PauseIR), (.PauseIR, true, .Exit2IR),
      (.Exit2IR, false, .ShiftIR), (.Exit2IR, true, .UpdateIR), (.UpdateIR, false, .RunTestIdle)],
    ∀ s : State, s.link = .Open → s.out.clock = false → s.out.trst = true → s.tap = e.1 → s.out.mode = e.2.1 →
      ∃ t, exec (.setsig 0 true) s = .next t ∧ t.tap = e.2.2

/-- One clock cycle by hand (41_tap_state_machine.md R113, the spec's own inference): three SETSIG commands move `tap` by
`mode`, leave the clock low, emit three events and change nothing else. -/
def Obligations.HandMadeClockCycle : Prop :=
  ∀ (s : State) (m : Level), s.link = .Open → s.out.clock = false → s.out.trst = true →
    execAll [.setsig 1 m, .setsig 0 true, .setsig 0 false] s = .next (answered .OK { s with
      out := { s.out with mode := m }
      tap := tapNext s.tap m
      trace := s.trace ++ [.set .mode m, .set .clock true, .set .clock false] })

/-- Five hand-made edges with `mode` high lead to TestLogicReset from every state, and four do so from all but six
(41_tap_state_machine.md R112, the spec's own inference; it rests on the G entries, log 10). -/
def Obligations.FiveEdgesReachTestLogicReset : Prop :=
  (∀ s : State, s.link = .Open → s.out.clock = false → s.out.trst = true →
      ∃ t, execAll (List.replicate 5 [.setsig 1 true, .setsig 0 true, .setsig 0 false]).flatten s = .next t
        ∧ t.tap = .TestLogicReset)
    ∧ ∀ x : Tap, tapNext (tapNext (tapNext (tapNext x true) true) true) true ≠ .TestLogicReset ↔
        x ∈ [Tap.CaptureDR, .ShiftDR, .PauseDR, .CaptureIR, .ShiftIR, .PauseIR]

/-- CONNECT (41_tap_state_machine.md R121): with the link open it runs from every state of `tap` and of the latches, emits
the sequence of R121 event by event, and ends at home with the idle pattern on the pins; nothing else changes. From a
`tap` other than TestLogicReset its first five edges take G entries (log 10), which no clause depends on. -/
def Obligations.ConnectReachesHome : Prop :=
  encode .connect = 0x050000000000
    ∧ LinkStops .connect
    ∧ ∀ s : State, s.link = .Open →
      exec .connect s = .next (answered .OK { s with
        out := { clock := false, mode := true, dataIn := false, resetRequest := true, trst := true }
        tap := .SelectDRScan
        trace := s.trace ++
          ([.set .clock false, .set .mode true, .set .dataIn false, .set .resetRequest true, .set .trst true,
              .wait .settle]
            ++ walkEvents [true, true, true, true, true]
            ++ [.set .trst false, .set .resetRequest false, .wait .reset, .set .trst true, .set .resetRequest true,
              .wait .reset]
            ++ walkEvents [true, true, true, true, true]
            ++ walkEvents [false] ++ walkEvents [true]) })

/-- After CONNECT a standard target, in whatever state it was and whether its `trst` is wired or not, is in the state
TAPENG records, SelectDRScan (41_tap_state_machine.md R122, the spec's own inference; the target is the assumption of
log 15). -/
def Obligations.ConnectBringsTheTargetTogether : Prop :=
  ∀ (s : State) (g : Target), s.link = .Open → (g.trstWired = false → g.port.out.trst = true) →
    ∃ t events, exec .connect s = .next t ∧ t.trace = s.trace ++ events
      ∧ (g.after events).together t = true ∧ t.tap = .SelectDRScan

/-- The home-state contract (41_tap_state_machine.md R115): a command that needs the home state is refused with NotHome
away from it, and when it is not refused it started at home and ends at home. -/
def Obligations.HomeStateContract : Prop :=
  ∀ (i : Instr) (s : State), i.needsHome = true →
    (s.link = .Open → i.wellFormed = true → home s = false → exec i s = .next (answered .NotHome s))
    ∧ (s.params.wf → ∀ (t : State) (r : Response), exec i s = .next t → t.response = some r →
        r.status.isRefusal = false → home s = true ∧ home t = true)

/-! ## Shifts -/

/-- SHIFT_IR (42_shift_ops.md R145, with the scan of R141): the refusals in order, and otherwise the walk, the scan of `L`
cycles with its fill and dummy bits, the `W` kept answers as result, and the end at home; nothing else changes. -/
def Obligations.ShiftIrShiftsTheInstructionPath : Prop :=
  ∀ (width : BitVec 6) (value : Word),
    opField (encode (.shiftIr width value)) = 6
      ∧ widthField (encode (.shiftIr width value)) = width ∧ valueField (encode (.shiftIr width value)) = value
      ∧ reservedClearS (encode (.shiftIr width value)) = true
      ∧ ShiftStops (.shiftIr width value) width.toNat (fun s => s.params.irOffset) State.lenI
      ∧ ∀ s : State, s.link = .Open → 1 ≤ width.toNat → width.toNat ≤ 32 → s.tap = .SelectDRScan →
        s.out.clock = false → s.out.trst = true → (s.lenI = 0 ∨ s.params.irOffset + width.toNat ≤ s.lenI) →
        let W := width.toNat
        let P := s.params.irOffset
        let L := if s.lenI = 0 then P + W else s.lenI
        exec (.shiftIr width value) s = .next { moved
            { s.out with mode := true, dataIn := if 0 < P then true else value.getLsbD (W - 1) }
            .SelectDRScan
            (walkEvents [true, false, false]
              ++ scanEvents (List.replicate (L - P - W) false ++ lowBits value W ++ List.replicate P true)
                  (answersOf s (L - P))
              ++ walkEvents [true, true])
            (L - P) s with
          response := some { status := .OK, r0 := wordOf ((answersOf s (L - P)).drop (L - P - W)), r1 := 0 } }

/-- SHIFT_DR (42_shift_ops.md R146): the same on the data path, with `DR_OFFSET` and `LEN_D`. -/
def Obligations.ShiftDrShiftsTheDataPath : Prop :=
  ∀ (width : BitVec 6) (value : Word),
    opField (encode (.shiftDr width value)) = 7
      ∧ widthField (encode (.shiftDr width value)) = width ∧ valueField (encode (.shiftDr width value)) = value
      ∧ reservedClearS (encode (.shiftDr width value)) = true
      ∧ ShiftStops (.shiftDr width value) width.toNat (fun s => s.params.drOffset) State.lenD
      ∧ ∀ s : State, s.link = .Open → 1 ≤ width.toNat → width.toNat ≤ 32 → s.tap = .SelectDRScan →
        s.out.clock = false → s.out.trst = true → (s.lenD = 0 ∨ s.params.drOffset + width.toNat ≤ s.lenD) →
        let W := width.toNat
        let P := s.params.drOffset
        let L := if s.lenD = 0 then P + W else s.lenD
        exec (.shiftDr width value) s = .next { moved
            { s.out with mode := true, dataIn := if 0 < P then true else value.getLsbD (W - 1) }
            .SelectDRScan
            (walkEvents [false, false]
              ++ scanEvents (List.replicate (L - P - W) false ++ lowBits value W ++ List.replicate P true)
                  (answersOf s (L - P))
              ++ walkEvents [true, true])
            (L - P) s with
          response := some { status := .OK, r0 := wordOf ((answersOf s (L - P)).drop (L - P - W)), r1 := 0 } }

/-- EXEC_IN_RESET (42_shift_ops.md R147): the refusals of SHIFT_IR before any pin moves, then the whole instruction shift
with reset-request low, and the line released at the end whatever it was before (R211). -/
def Obligations.ExecInResetShiftsUnderReset : Prop :=
  ∀ (width : BitVec 6) (value : Word),
    opField (encode (.execInReset width value)) = 9
      ∧ widthField (encode (.execInReset width value)) = width ∧ valueField (encode (.execInReset width value)) = value
      ∧ reservedClearS (encode (.execInReset width value)) = true
      ∧ ShiftStops (.execInReset width value) width.toNat (fun s => s.params.irOffset) State.lenI
      ∧ ∀ s : State, s.link = .Open → 1 ≤ width.toNat → width.toNat ≤ 32 → s.tap = .SelectDRScan →
        s.out.clock = false → s.out.trst = true → (s.lenI = 0 ∨ s.params.irOffset + width.toNat ≤ s.lenI) →
        let W := width.toNat
        let P := s.params.irOffset
        let L := if s.lenI = 0 then P + W else s.lenI
        exec (.execInReset width value) s = .next { moved
            { s.out with
              mode := true, resetRequest := true, dataIn := if 0 < P then true else value.getLsbD (W - 1) }
            .SelectDRScan
            ([.set .resetRequest false, .wait .reset]
              ++ walkEvents [true, false, false]
              ++ scanEvents (List.replicate (L - P - W) false ++ lowBits value W ++ List.replicate P true)
                  (answersOf s (L - P))
              ++ walkEvents [true, true]
              ++ [.set .resetRequest true])
            (L - P) s with
          response := some { status := .OK, r0 := wordOf ((answersOf s (L - P)).drop (L - P - W)), r1 := 0 } }

/-- Operand bits from the width up are ignored by all three shifts, whatever they hold (the clause of 30_encoding.md R73;
95_test_vectors.md V12 b). -/
def Obligations.OperandBitsAboveTheWidthAreIgnored : Prop :=
  ∀ (width : BitVec 6) (v w : Word) (s : State), (∀ k < width.toNat, v.getLsbD k = w.getLsbD k) →
    exec (.shiftIr width v) s = exec (.shiftIr width w) s
      ∧ exec (.shiftDr width v) s = exec (.shiftDr width w) s
      ∧ exec (.execInReset width v) s = exec (.execInReset width w) s

/-- Pulse and sample counts of a shift that is not refused (42_shift_ops.md R148, R149, 70_reset_and_hazards.md R214, the
spec's own inferences): SHIFT_IR and EXEC_IN_RESET `L + 5` pulses, SHIFT_DR `L + 4`, `L - P` samples each. -/
def Obligations.ShiftPulseAndSampleCounts : Prop :=
  ∀ (s : State) (width : BitVec 6) (value : Word), home s = true → legalWidth width = true →
    ((s.lenI = 0 ∨ s.params.irOffset + width.toNat ≤ s.lenI) →
      ∀ i ∈ [Instr.shiftIr width value, .execInReset width value],
        ∃ t events, exec i s = .next t ∧ t.trace = s.trace ++ events
          ∧ clockPulses events = pathLen s.lenI s.params.irOffset width.toNat + 5
          ∧ (sampledLevels events).length = pathLen s.lenI s.params.irOffset width.toNat - s.params.irOffset)
    ∧ ((s.lenD = 0 ∨ s.params.drOffset + width.toNat ≤ s.lenD) →
        ∃ t events, exec (.shiftDr width value) s = .next t ∧ t.trace = s.trace ++ events
          ∧ clockPulses events = pathLen s.lenD s.params.drOffset width.toNat + 4
          ∧ (sampledLevels events).length = pathLen s.lenD s.params.drOffset width.toNat - s.params.drOffset)

/-- On a reference instruction path of exactly `L` stages a SHIFT_IR leaves the driven bits in the stages, the operand in
the target's window, and returns what the window captured (42_shift_ops.md R151, the spec's own inference; the path is
the assumption of 20_memory.md R51, log 15). -/
def Obligations.InstructionShiftOnTheReferencePath : Prop :=
  ∀ (s : State) (g : Target) (width : BitVec 6) (value : Word), home s = true → legalWidth width = true →
    (s.lenI = 0 ∨ s.params.irOffset + width.toNat ≤ s.lenI) → g.together s = true →
    let W := width.toNat
    let P := s.params.irOffset
    let L := pathLen s.lenI P W
    g.irCapture.length = L →
    ∃ t events, exec (.shiftIr width value) s = .next t ∧ t.trace = s.trace ++ events ∧
      (g.answers events = true →
        (g.after events).irStages = List.replicate (L - P - W) false ++ lowBits value W ++ List.replicate P true
          ∧ (g.after events).drStages = g.drStages
          ∧ t.response = some { status := .OK, r0 := wordOf ((g.irCapture.drop (L - P - W)).take W), r1 := 0 })

/-- The same for SHIFT_DR and a reference data path (R151, R51, log 15). -/
def Obligations.DataShiftOnTheReferencePath : Prop :=
  ∀ (s : State) (g : Target) (width : BitVec 6) (value : Word), home s = true → legalWidth width = true →
    (s.lenD = 0 ∨ s.params.drOffset + width.toNat ≤ s.lenD) → g.together s = true →
    let W := width.toNat
    let P := s.params.drOffset
    let L := pathLen s.lenD P W
    g.drCapture.length = L →
    ∃ t events, exec (.shiftDr width value) s = .next t ∧ t.trace = s.trace ++ events ∧
      (g.answers events = true →
        (g.after events).drStages = List.replicate (L - P - W) false ++ lowBits value W ++ List.replicate P true
          ∧ (g.after events).irStages = g.irStages
          ∧ t.response = some { status := .OK, r0 := wordOf ((g.drCapture.drop (L - P - W)).take W), r1 := 0 })

/-! ## Measurement -/

/-- MEASURE (43_measure.md R160, R161): refused by the link and away from home; otherwise both probes event by event,
instruction path first, and both lengths written or both cleared; nothing else changes. The response words of lengths of
2^32 or more are free (log 8). -/
def Obligations.MeasureProbesBothPaths : Prop :=
  encode .measure = 0x080000000000
    ∧ LinkStops .measure
    ∧ (∀ s : State, s.link = .Open → ¬(s.tap = .SelectDRScan ∧ s.out.clock = false ∧ s.out.trst = true) →
        exec .measure s = .next (answered .NotHome s))
    ∧ (∀ n : Nat, n < 2 ^ 32 → (lengthWord n).toNat = n)
    ∧ ∀ s : State, s.params.wf → s.link = .Open → s.tap = .SelectDRScan → s.out.clock = false → s.out.trst = true →
      let m := s.params.maxProbe
      let a := probeResult (answersOf s m)
      let after := consume (probeSamples m a) s
      let b := probeResult (answersOf after m)
      let done := moved { s.out with mode := true, dataIn := true } .SelectDRScan
        (probeTrace [true, false, false] m (answersOf s (probeSamples m a))
          ++ probeTrace [false, false] m (answersOf after (probeSamples m b)))
        (probeSamples m a + probeSamples m b) s
      exec .measure s = .next (match a, b with
        | some p, some q => { done with
            lenI := p, lenD := q, response := some { status := .OK, r0 := lengthWord p, r1 := lengthWord q } }
        | _, _ => answered .Overflow { done with lenI := 0, lenD := 0 })

/-- Overflow (43_measure.md R163): MEASURE raises it exactly when all `MAX_PROBE` answers of one of the probes are 1; in
either case it ends at home with the link open. -/
def Obligations.MeasureOverflowsWhenNoZeroReturns : Prop :=
  ∀ s : State, s.params.wf → home s = true →
    ∃ t, exec .measure s = .next t ∧ home t = true ∧ t.link = .Open
      ∧ (t.response = some { status := .Overflow, r0 := 0, r1 := 0 } ↔
          (∀ b ∈ answersOf s s.params.maxProbe, b = true)
          ∨ (∀ b ∈ answersOf (consume (probeSamples s.params.maxProbe
              (probeResult (answersOf s s.params.maxProbe))) s) s.params.maxProbe, b = true))

/-- MEASURE is the only command that writes the lengths, and it writes both from one measurement or clears both
(43_measure.md R164): in the OK case each length is the result of this command's own probe, the second probe's answers
being those that follow the first's. The range 1 to `MAX_PROBE` is R162's, the spec's own inference; the response words of
lengths of 2^32 or more are free (log 8), and the answers are those of log 6. -/
def Obligations.LengthsComeFromOneMeasurement : Prop :=
  (∀ (i : Instr) (s t : State), i ≠ .measure → exec i s = .next t → t.lenI = s.lenI ∧ t.lenD = s.lenD)
    ∧ ∀ s t : State, s.params.wf → exec .measure s = .next t →
      let m := s.params.maxProbe
      ((∃ e : Status, e.isRefusal = true ∧ t = answered e s)
        ∨ (probeResult (answersOf s m) = some t.lenI
            ∧ probeResult (answersOf (consume (probeSamples m (some t.lenI)) s) m) = some t.lenD
            ∧ 1 ≤ t.lenI ∧ t.lenI ≤ m ∧ 1 ≤ t.lenD ∧ t.lenD ≤ m
            ∧ t.response = some { status := .OK, r0 := lengthWord t.lenI, r1 := lengthWord t.lenD })
        ∨ (t.lenI = 0 ∧ t.lenD = 0 ∧ t.response = some { status := .Overflow, r0 := 0, r1 := 0 }))

/-- Pulse and sample counts of MEASURE (43_measure.md R166, the spec's own inference), with each probe's result replaced
by `MAX_PROBE` on overflow. -/
def Obligations.MeasurePulseAndSampleCounts : Prop :=
  ∀ s : State, s.params.wf → home s = true →
    let m := s.params.maxProbe
    let a := probeSamples m (probeResult (answersOf s m))
    let b := probeSamples m (probeResult (answersOf (consume a s) m))
    ∃ t events, exec .measure s = .next t ∧ t.trace = s.trace ++ events
      ∧ clockPulses events = (m + a + 6) + (m + b + 5)
      ∧ (sampledLevels events).length = a + b

/-- On reference paths of 1 to `MAX_PROBE` stages MEASURE returns their lengths, whatever they captured, and leaves them
full of ones (43_measure.md R165, the spec's own inference; the paths are the assumption of 20_memory.md R51, log 15). The
response words of lengths of 2^32 or more are free (log 8). -/
def Obligations.MeasureFindsTheReferenceLengths : Prop :=
  ∀ (s : State) (g : Target), s.params.wf → home s = true → g.together s = true →
    1 ≤ g.irCapture.length → g.irCapture.length ≤ s.params.maxProbe →
    1 ≤ g.drCapture.length → g.drCapture.length ≤ s.params.maxProbe →
    ∃ t events, exec .measure s = .next t ∧ t.trace = s.trace ++ events ∧
      (g.answers events = true →
        t.lenI = g.irCapture.length ∧ t.lenD = g.drCapture.length
          ∧ (g.after events).irStages = List.replicate g.irCapture.length true
          ∧ (g.after events).drStages = List.replicate g.drCapture.length true
          ∧ t.response = some { status := .OK, r0 := lengthWord t.lenI, r1 := lengthWord t.lenD })

/-- What a stuck line measures (43_measure.md R167 a and b, the spec's own inference): low at
every sample the probes can take gives lengths 1 and 1, high overflows. -/
def Obligations.StuckLineMeasurements : Prop :=
  ∀ s : State, s.params.wf → home s = true →
    ((∀ k < 2 * s.params.maxProbe, answerAt s k = false) → ∃ t, exec .measure s = .next t ∧ t.lenI = 1 ∧ t.lenD = 1
        ∧ t.response = some { status := .OK, r0 := 1, r1 := 1 })
    ∧ ((∀ k < 2 * s.params.maxProbe, answerAt s k = true) → ∃ t, exec .measure s = .next t ∧ t.lenI = 0 ∧ t.lenD = 0
        ∧ t.response = some { status := .Overflow, r0 := 0, r1 := 0 })

/-- A measured length bounds every later shift (70_reset_and_hazards.md R215, the spec's own inference): after a MEASURE
that answered OK, and after any commands that are not MEASURE, a shift that does not fit is refused. -/
def Obligations.MeasuredLengthBoundsLaterShifts : Prop :=
  ∀ (s t u : State) (is : List Instr) (r : Response) (width : BitVec 6) (value : Word),
    s.params.wf → exec .measure s = .next t → t.response = some r → r.status = .OK →
    (∀ i ∈ is, i ≠ .measure) → execAll is t = .next u → home u = true → legalWidth width = true →
    (t.lenD < u.params.drOffset + width.toNat → exec (.shiftDr width value) u = .next (answered .ShiftTooWide u))
      ∧ (t.lenI < u.params.irOffset + width.toNat → exec (.shiftIr width value) u = .next (answered .ShiftTooWide u)
          ∧ exec (.execInReset width value) u = .next (answered .ShiftTooWide u))

/-! ## The whole machine -/

/-- Every step answers a next state, and every command a response: no command hangs or stops the machine
(60_exceptions.md R170, R181). -/
def Obligations.EveryCommandAnswers : Prop :=
  (∀ s : State, ∃ t, step s = .next t)
    ∧ ∀ (i : Instr) (s : State), ∃ t r, exec i s = .next t ∧ t.response = some r

/-- The order of refusals (60_exceptions.md R176): IllegalCommand, LinkFailed, LinkNotOpen or LinkAlreadyOpen, BadSignal or
BadWidth, NotHome, ShiftTooWide; each clause holds whatever later clauses would apply. -/
def Obligations.RefusalsComeInOrder : Prop :=
  (∀ (s : State) (w : Command) (rest : List HostAct) (e : Illegal), s.host = .command w :: rest →
      decode w = .error e → step s = .next (answered .IllegalCommand { s with host := rest }))
    ∧ (∀ (i : Instr) (s : State), i ≠ .closeLink → s.link = .Failed → exec i s = .next (answered .LinkFailed s))
    ∧ (∀ (i : Instr) (s : State), i ≠ .openLink → i ≠ .closeLink → s.link = .Closed →
        exec i s = .next (answered .LinkNotOpen s))
    ∧ (∀ s : State, s.link = .Open → exec .openLink s = .next (answered .LinkAlreadyOpen s))
    ∧ (∀ (i : Instr) (s : State), s.link = .Open → i.wellFormed = false →
        exec i s = .next (answered (if i.needsHome then .BadWidth else .BadSignal) s))
    ∧ (∀ (i : Instr) (s : State), s.link = .Open → i.wellFormed = true → i.needsHome = true → home s = false →
        exec i s = .next (answered .NotHome s))
    ∧ (∀ (i : Instr) (s : State) (W P len : Nat), home s = true → i.wellFormed = true →
        i.shiftOf s = some (W, P, len) → len ≠ 0 → len < P + W → exec i s = .next (answered .ShiftTooWide s))

/-- A refused command has no effect but its response, and every response that is not OK carries zeros (60_exceptions.md
R171, R172, the spec's own inference). -/
def Obligations.RefusedCommandsChangeNothing : Prop :=
  ∀ (i : Instr) (s t : State) (r : Response), exec i s = .next t → t.response = some r →
    (r.status.isRefusal = true → t = answered r.status s)
      ∧ (r.status ≠ .OK → r.r0 = 0 ∧ r.r1 = 0)

/-- The link trace accounts for the pins and the tracked machine (10_state.md R21, R25, R26): replaying the events of any
command at a port that was in TAPENG's state gives the latches and the `tap` TAPENG ends with. -/
def Obligations.TraceAccountsForPinsAndTap : Prop :=
  ∀ (i : Instr) (s : State), ∃ t events, exec i s = .next t ∧ t.trace = s.trace ++ events
    ∧ events.foldl Port.see s.port = t.port

/-- Every sample is the environment's next answer, each taken once (00_scope.md R9, 10_state.md R23, 40_link_ops.md R98;
log 6). -/
def Obligations.SamplesAreTheNextAnswers : Prop :=
  ∀ (i : Instr) (s : State), ∃ t events, exec i s = .next t ∧ t.trace = s.trace ++ events
    ∧ sampledLevels events = answersOf s (sampledLevels events).length
    ∧ t.samples = s.samples.drop (sampledLevels events).length
    ∧ t.drawn = s.drawn + ((sampledLevels events).length - s.samples.length)

/-- Every sample any command takes has a settle wait after the last pin write before it (70_reset_and_hazards.md R205). -/
def Obligations.SettleWaitBeforeEverySample : Prop :=
  ∀ (i : Instr) (s : State), ∃ t events, exec i s = .next t ∧ t.trace = s.trace ++ events
    ∧ sampleSettled false events = true

/-- TAPENG's own sequences raise the clock only after `mode` and `data-in` have settled (70_reset_and_hazards.md R206). A
hand-driven edge (SETSIG) is the host's duty (R207) and is left out. -/
def Obligations.ModeSettlesBeforeEveryEdge : Prop :=
  ∀ (i : Instr) (s : State), (i.needsHome = true ∨ i = .connect) →
    ∃ t events, exec i s = .next t ∧ t.trace = s.trace ++ events ∧ edgeSettled false events = true

/-- While the link is not open no command moves a pin, samples, or emits an event, but for an OPEN that succeeds
(10_state.md R21, 40_link_ops.md R91, R97). -/
def Obligations.ClosedLinkIsSilent : Prop :=
  ∀ (i : Instr) (s : State), s.link ≠ .Open →
    ∃ t, exec i s = .next t
      ∧ ((t.trace = s.trace ∧ t.out = s.out ∧ t.tap = s.tap ∧ t.samples = s.samples ∧ t.drawn = s.drawn)
        ∨ (i = .openLink ∧ s.link = .Closed ∧ t.link = .Open))

/-- The outputs are never read back, and what the host does next is not looked at (10_state.md R31, R34): whatever the
trace, the last response and the host's list hold, a command does the same (log 1, 4, 5). -/
def Obligations.OutputsAreNeverReadBack : Prop :=
  ∀ (i : Instr) (s : State), ∃ (u : State) (events : List Event), ∀ (tr : List Event) (r : Option Response) (h : List HostAct),
    exec i { s with trace := tr, response := r, host := h } = .next { u with trace := tr ++ events, host := h }

/-- The parameters are arguments (00_scope.md R5, 93_implementation_defined.md U15; log 3): no step changes them. -/
def Obligations.ParametersNeverChange : Prop := ∀ s t : State, step s = .next t → t.params = s.params

/-- The invariant of 10_state.md R27 and R28, with R5 and R164, holds after reset. -/
def Obligations.InvariantHoldsAtReset : Prop := State.reset.inv

/-- Every step keeps the invariant: `trst` low implies TestLogicReset (R27), the lengths are at most `MAX_PROBE` (R28) and
from one measurement (R164). -/
def Obligations.EveryStepKeepsTheInvariant : Prop := ∀ s t : State, s.inv → step s = .next t → t.inv

/-- The disconnect sequences end a session from every state with the link open (30_encoding.md R82,
70_reset_and_hazards.md R204): both reset-family lines released and the link closed, whatever the codes and also where
the shifts are refused. -/
def Obligations.DisconnectReleasesEverything : Prop :=
  ∀ (s : State) (leaveInDebug : Bool) (jumpZero idcode : Word), s.link = .Open →
    ∃ t, execAll (Pseudo.disconnect leaveInDebug jumpZero idcode).expand s = .next t
      ∧ t.link = .Closed ∧ t.out.resetRequest = true ∧ t.out.trst = true

/-- CONNECT issues 12 clock pulses and no sample, and every clock cycle made by `navCycle` or `shiftCycle`, in any state,
appends events that last at least `T_SETTLE + 2 * T_PULSE` (70_reset_and_hazards.md R214, the spec's own inference).
`T_SETTLE` is the nominal 100 ns of R5 and `T_PULSE` stays symbolic (log 9). -/
def Obligations.ConnectPulsesAndCycleTime : Prop :=
  (∀ s : State, s.link = .Open → ∃ t events, exec .connect s = .next t ∧ t.trace = s.trace ++ events
      ∧ clockPulses events = 12 ∧ sampledLevels events = [])
    ∧ (∀ (m : Level) (s : State), ∃ events, (navCycle m s).trace = s.trace ++ events
        ∧ leastDuration events = Config.leastTime .settle + 2 * Config.leastTime .pulse)
    ∧ (∀ (m d sample : Level) (s : State), ∃ events, (shiftCycle m d sample s).2.trace = s.trace ++ events
        ∧ leastDuration events = Config.leastTime .settle + 2 * Config.leastTime .pulse)
    ∧ Config.leastTime .settle = 100
end

