-- ==== Sys2Proof/Laws/State.lean ====
section
/-! SUPPORT. One lemma per field per update, so that no later proof unfolds a record update. -/

namespace Sys2Proof.Machine

/-! ### Latches -/

@[simp] theorem Latches.get_set_same (o : Latches) (x : Signal) (v : Level) : (o.set x v).get x = v := by
  cases x <;> rfl

theorem Latches.get_set_other (o : Latches) (x y : Signal) (v : Level) (h : x ≠ y) : (o.set x v).get y = o.get y := by
  cases x <;> cases y <;> first | rfl | exact absurd rfl h

@[simp] theorem Latches.set_clock (o : Latches) (v : Level) : o.set .clock v = { o with clock := v } := rfl
@[simp] theorem Latches.set_mode (o : Latches) (v : Level) : o.set .mode v = { o with mode := v } := rfl
@[simp] theorem Latches.set_dataIn (o : Latches) (v : Level) : o.set .dataIn v = { o with dataIn := v } := rfl
@[simp] theorem Latches.set_resetRequest (o : Latches) (v : Level) :
    o.set .resetRequest v = { o with resetRequest := v } := rfl
@[simp] theorem Latches.set_trst (o : Latches) (v : Level) : o.set .trst v = { o with trst := v } := rfl

/-! ### respond and raise -/

section Respond
variable (e : Status) (a b : Word) (s : State)

@[simp] theorem respond_link : (respond e a b s).link = s.link := rfl
@[simp] theorem respond_out : (respond e a b s).out = s.out := rfl
@[simp] theorem respond_tap : (respond e a b s).tap = s.tap := rfl
@[simp] theorem respond_lenI : (respond e a b s).lenI = s.lenI := rfl
@[simp] theorem respond_lenD : (respond e a b s).lenD = s.lenD := rfl
@[simp] theorem respond_params : (respond e a b s).params = s.params := rfl
@[simp] theorem respond_host : (respond e a b s).host = s.host := rfl
@[simp] theorem respond_response :
    (respond e a b s).response = some { status := e, r0 := a, r1 := b } := rfl
@[simp] theorem respond_trace : (respond e a b s).trace = s.trace := rfl
@[simp] theorem respond_samples : (respond e a b s).samples = s.samples := rfl
@[simp] theorem respond_drawn : (respond e a b s).drawn = s.drawn := rfl
@[simp] theorem respond_answers : (respond e a b s).answers = s.answers := rfl
@[simp] theorem respond_asked : (respond e a b s).asked = s.asked := rfl

/-- `raise E` answers `(E, 0, 0)` and changes nothing else (R171). -/
theorem raise_eq : raise e s = { s with response := some { status := e, r0 := 0, r1 := 0 } } := rfl

end Respond

/-! ### setSignal, wait, consume -/

section Writes
variable (x : Signal) (v : Level) (t : Duration) (n : Nat) (s : State)

@[simp] theorem setSignal_link : (setSignal x v s).link = s.link := rfl
@[simp] theorem setSignal_out : (setSignal x v s).out = s.out.set x v := rfl
@[simp] theorem setSignal_tap : (setSignal x v s).tap = tapAfter x v s := rfl
@[simp] theorem setSignal_lenI : (setSignal x v s).lenI = s.lenI := rfl
@[simp] theorem setSignal_lenD : (setSignal x v s).lenD = s.lenD := rfl
@[simp] theorem setSignal_params : (setSignal x v s).params = s.params := rfl
@[simp] theorem setSignal_host : (setSignal x v s).host = s.host := rfl
@[simp] theorem setSignal_response : (setSignal x v s).response = s.response := rfl
@[simp] theorem setSignal_trace : (setSignal x v s).trace = s.trace ++ [.set x v] := rfl
@[simp] theorem setSignal_samples : (setSignal x v s).samples = s.samples := rfl
@[simp] theorem setSignal_drawn : (setSignal x v s).drawn = s.drawn := rfl
@[simp] theorem setSignal_answers : (setSignal x v s).answers = s.answers := rfl
@[simp] theorem setSignal_asked : (setSignal x v s).asked = s.asked := rfl

@[simp] theorem wait_link : (wait t s).link = s.link := rfl
@[simp] theorem wait_out : (wait t s).out = s.out := rfl
@[simp] theorem wait_tap : (wait t s).tap = s.tap := rfl
@[simp] theorem wait_lenI : (wait t s).lenI = s.lenI := rfl
@[simp] theorem wait_lenD : (wait t s).lenD = s.lenD := rfl
@[simp] theorem wait_params : (wait t s).params = s.params := rfl
@[simp] theorem wait_host : (wait t s).host = s.host := rfl
@[simp] theorem wait_response : (wait t s).response = s.response := rfl
@[simp] theorem wait_trace : (wait t s).trace = s.trace ++ [.wait t] := rfl
@[simp] theorem wait_samples : (wait t s).samples = s.samples := rfl
@[simp] theorem wait_drawn : (wait t s).drawn = s.drawn := rfl
@[simp] theorem wait_answers : (wait t s).answers = s.answers := rfl
@[simp] theorem wait_asked : (wait t s).asked = s.asked := rfl

@[simp] theorem consume_link : (consume n s).link = s.link := rfl
@[simp] theorem consume_out : (consume n s).out = s.out := rfl
@[simp] theorem consume_tap : (consume n s).tap = s.tap := rfl
@[simp] theorem consume_lenI : (consume n s).lenI = s.lenI := rfl
@[simp] theorem consume_lenD : (consume n s).lenD = s.lenD := rfl
@[simp] theorem consume_params : (consume n s).params = s.params := rfl
@[simp] theorem consume_host : (consume n s).host = s.host := rfl
@[simp] theorem consume_response : (consume n s).response = s.response := rfl
@[simp] theorem consume_trace : (consume n s).trace = s.trace := rfl
@[simp] theorem consume_samples : (consume n s).samples = s.samples.drop n := rfl
@[simp] theorem consume_drawn : (consume n s).drawn = s.drawn + (n - s.samples.length) := rfl
@[simp] theorem consume_answers : (consume n s).answers = s.answers := rfl
@[simp] theorem consume_asked : (consume n s).asked = s.asked := rfl

end Writes

/-! ### The environment's answers -/

theorem answerAt_congr {s t : State} (h1 : t.samples = s.samples) (h2 : t.drawn = s.drawn) (k : Nat) :
    answerAt t k = answerAt s k := by
  simp [answerAt, h1, h2]

theorem answersOf_congr {s t : State} (h1 : t.samples = s.samples) (h2 : t.drawn = s.drawn) (n : Nat) :
    answersOf t n = answersOf s n := by
  simp [answersOf, answerAt, h1, h2]

/-- Taking `m` answers after `n` is taking `n + m`. -/
theorem consume_consume (m n : Nat) (s : State) : consume m (consume n s) = consume (n + m) s := by
  simp only [consume, List.drop_drop, List.length_drop, State.mk.injEq, true_and, and_true]
  omega

@[simp] theorem consume_zero (s : State) : consume 0 s = s := by
  simp [consume]

/-- The `k`-th answer after `n` were taken is the `(n+k)`-th from the start. -/
theorem answerAt_consume (n k : Nat) (s : State) : answerAt (consume n s) k = answerAt s (n + k) := by
  simp only [answerAt, consume, List.getD_eq_getElem?_getD, List.getElem?_drop, List.length_drop]
  rcases Nat.lt_or_ge (n + k) s.samples.length with h | h
  · simp [List.getElem?_eq_getElem h]
  · rw [List.getElem?_eq_none h]
    congr 2
    omega

@[simp] theorem answersOf_length (s : State) (n : Nat) : (answersOf s n).length = n := by
  simp [answersOf]

theorem answersOf_getElem? (s : State) (n k : Nat) :
    (answersOf s n)[k]? = if k < n then some (answerAt s k) else none := by
  simp only [answersOf, List.getElem?_map]
  split <;> simp_all

/-- The next `n + 1` answers are the next one and the `n` after it. -/
theorem answersOf_succ (s : State) (n : Nat) :
    answersOf s (n + 1) = answerAt s 0 :: answersOf (consume 1 s) n := by
  simp only [answersOf, List.range_succ_eq_map, List.map_cons, List.map_map, List.cons.injEq, true_and]
  refine List.map_congr_left fun k _ => ?_
  simp [answerAt_consume, Nat.add_comm]

/-! ### Moves at the pins -/

section Moved
variable (o p : Latches) (x y : Tap) (es fs : List Event) (m n k : Nat) (s : State)

@[simp] theorem moved_link : (moved o x es n s).link = s.link := rfl
@[simp] theorem moved_out : (moved o x es n s).out = o := rfl
@[simp] theorem moved_tap : (moved o x es n s).tap = x := rfl
@[simp] theorem moved_lenI : (moved o x es n s).lenI = s.lenI := rfl
@[simp] theorem moved_lenD : (moved o x es n s).lenD = s.lenD := rfl
@[simp] theorem moved_params : (moved o x es n s).params = s.params := rfl
@[simp] theorem moved_host : (moved o x es n s).host = s.host := rfl
@[simp] theorem moved_response : (moved o x es n s).response = s.response := rfl
@[simp] theorem moved_trace : (moved o x es n s).trace = s.trace ++ es := rfl
@[simp] theorem moved_samples : (moved o x es n s).samples = s.samples.drop n := rfl
@[simp] theorem moved_drawn : (moved o x es n s).drawn = s.drawn + (n - s.samples.length) := rfl
@[simp] theorem moved_answers : (moved o x es n s).answers = s.answers := rfl
@[simp] theorem moved_asked : (moved o x es n s).asked = s.asked := rfl

/-- One move after another is one move. -/
@[simp] theorem moved_moved : moved p y fs m (moved o x es n s) = moved p y (es ++ fs) (n + m) s := by
  have hs := congrArg State.samples (consume_consume m n s)
  have hd := congrArg State.drawn (consume_consume m n s)
  simp only [consume_samples, consume_drawn] at hs hd
  simp only [moved, consume, hs, hd, List.append_assoc]

/-- A state is the move of itself that does nothing. -/
theorem moved_self : moved s.out s.tap [] 0 s = s := by
  simp [moved]

theorem answerAt_moved : answerAt (moved o x es n s) k = answerAt s (n + k) := answerAt_consume n k s

/-- The answers seen after a move are those not yet taken. -/
theorem answersOf_moved : answersOf (moved o x es n s) m = answersOf (consume n s) m := rfl

end Moved

/-- A draw gives the next answer and takes it (R9, R23). -/
theorem draw_eq (s : State) : draw s = (answerAt s 0, consume 1 s) := by
  unfold draw
  rcases h : s.samples with _ | ⟨b, rest⟩
  · simp [answerAt, consume, h]
  · simp [answerAt, consume, h]

/-- OPEN's question takes the next answer of the environment (R92). -/
theorem askEnvironment_eq (s : State) : askEnvironment s = (nextAnswer s, consumeAnswer s) := by
  unfold askEnvironment
  rcases h : s.answers with _ | ⟨a, rest⟩
  · simp [nextAnswer, consumeAnswer, h]
  · simp [nextAnswer, consumeAnswer, h]

end Sys2Proof.Machine
end

