-- ==== Sys2Proof/Laws/Ops.lean ====
section
/-! SUPPORT. One equation per shared operation that says once everything it does, for callers to cite in place of its
definition: the micro-operations entered with the clock low (spec 41_tap_state_machine.md R116 to R120). -/

namespace Sys2Proof.Machine

theorem State.ext_fields {s t : State} (h1 : s.link = t.link) (h2 : s.out = t.out) (h3 : s.tap = t.tap)
    (h4 : s.lenI = t.lenI) (h5 : s.lenD = t.lenD) (h6 : s.params = t.params) (h7 : s.host = t.host)
    (h8 : s.response = t.response) (h9 : s.trace = t.trace) (h10 : s.samples = t.samples) (h11 : s.drawn = t.drawn)
    (h12 : s.answers = t.answers) (h13 : s.asked = t.asked) : s = t := by
  cases s; cases t; simp_all

/-! ### Primitives -/

theorem setSignal_eq (x : Signal) (v : Level) (s : State) :
    setSignal x v s = moved (s.out.set x v) (tapAfter x v s) [.set x v] 0 s := by
  apply State.ext_fields <;> simp

theorem wait_eq (t : Duration) (s : State) : wait t s = moved s.out s.tap [.wait t] 0 s := by
  apply State.ext_fields <;> simp

/-- A sample is the next answer, with its event (R98). -/
theorem readDataOut_eq (s : State) :
    readDataOut s = (answerAt s 0, moved s.out s.tap [.sample (answerAt s 0)] 1 s) := by
  simp [readDataOut, draw_eq, moved, consume]

/-- `tap` after a rising edge of a low clock (R25). -/
def tapAtEdge (s : State) (tms : Level) : Tap := if s.out.trst = false then .TestLogicReset else tapNext s.tap tms

theorem tapAtEdge_run (s : State) (tms : Level) (ht : s.out.trst = true) : tapAtEdge s tms = tapNext s.tap tms := by
  simp [tapAtEdge, ht]

/-- A pulse from a low clock is one rising edge; the latches end as they were (R116, R25). -/
theorem pulse_eq (s : State) (hc : s.out.clock = false) :
    pulse s = moved s.out (tapAtEdge s s.out.mode) pulseEvents 0 s := by
  apply State.ext_fields <;> simp [pulse, tapAfter, hc, pulseEvents, tapAtEdge]
  rw [← hc]

/-- One clock cycle that only moves the state machine (R118). -/
theorem navCycle_eq (tms : Level) (s : State) (hc : s.out.clock = false) :
    navCycle tms s = moved { s.out with mode := tms } (tapAtEdge s tms) (navEvents tms) 0 s := by
  rw [navCycle, pulse_eq _ (by simpa using hc), wait_eq, setSignal_eq]
  simp [navEvents, tapAtEdge, tapAfter]

/-- Every clock cycle leaves the clock low (R116). -/
@[simp] theorem navCycle_clock (tms : Level) (s : State) : (navCycle tms s).out.clock = false := rfl

/-- One clock cycle that drives both lines and may sample (R117). -/
theorem shiftCycle_eq (tms tdi sample : Level) (s : State) (hc : s.out.clock = false) :
    shiftCycle tms tdi sample s =
      (if sample then some (answerAt s 0) else none,
        moved { s.out with dataIn := tdi, mode := tms } (tapAtEdge s tms)
          (shiftEvents tms tdi (if sample then some (answerAt s 0) else none)) sample.toNat s) := by
  cases sample
  · simp only [shiftCycle, Bool.false_eq_true, if_false]
    rw [pulse_eq _ (by simpa using hc), wait_eq, setSignal_eq, setSignal_eq]
    simp [shiftEvents, sampleEvents, tapAtEdge, tapAfter]
  · simp only [shiftCycle, if_true, readDataOut_eq]
    rw [pulse_eq _ (by simpa using hc), wait_eq, setSignal_eq, setSignal_eq]
    simp [shiftEvents, sampleEvents, tapAtEdge, tapAfter, answerAt_moved]

/-- `probeSample()` (R119). -/
theorem probeSample_eq (s : State) :
    probeSample s = (answerAt s 0, moved s.out s.tap [.wait .settle, .sample (answerAt s 0)] 1 s) := by
  rw [probeSample, readDataOut_eq, wait_eq]
  simp [answerAt_moved]

/-! ### Walks (R120) -/

theorem toShiftIR_eq (s : State) (hc : s.out.clock = false) (ht : s.out.trst = true) (hs : s.tap = .SelectDRScan) :
    toShiftIR s = moved { s.out with mode := false } .ShiftIR (walkEvents [true, false, false]) 0 s := by
  rw [toShiftIR, navCycle_eq true s hc, navCycle_eq false _ (by simp [hc]),
    navCycle_eq false _ (by simp [hc])]
  simp [hs, ht, tapAtEdge, tapNext, walkEvents]

theorem toShiftDR_eq (s : State) (hc : s.out.clock = false) (ht : s.out.trst = true) (hs : s.tap = .SelectDRScan) :
    toShiftDR s = moved { s.out with mode := false } .ShiftDR (walkEvents [false, false]) 0 s := by
  rw [toShiftDR, navCycle_eq false s hc, navCycle_eq false _ (by simp [hc])]
  simp [hs, ht, tapAtEdge, tapNext, walkEvents]

theorem exitToHome_eq (s : State) (hc : s.out.clock = false) (ht : s.out.trst = true)
    (hs : s.tap = .Exit1DR ∨ s.tap = .Exit1IR) :
    exitToHome s = moved { s.out with mode := true } .SelectDRScan (walkEvents [true, true]) 0 s := by
  rw [exitToHome, navCycle_eq true s hc, navCycle_eq true _ (by simp [hc])]
  rcases hs with hs | hs <;> simp [hs, ht, tapAtEdge, tapNext, walkEvents]

/-! ### The events of a cycle, in any state (R116 to R118) -/

theorem navCycle_trace (tms : Level) (s : State) : (navCycle tms s).trace = s.trace ++ navEvents tms := by
  simp [navCycle, pulse, setSignal, wait, navEvents, pulseEvents]

theorem shiftCycle_trace (tms tdi sample : Level) (s : State) :
    (shiftCycle tms tdi sample s).2.trace =
      s.trace ++ shiftEvents tms tdi (if sample then some (answerAt s 0) else none) := by
  cases sample
  · simp [shiftCycle, pulse, setSignal, wait, shiftEvents, sampleEvents, pulseEvents]
  · simp [shiftCycle, readDataOut_eq, pulse, setSignal, wait, shiftEvents, sampleEvents, pulseEvents, answerAt]

/-! ### The home state (R114) -/

theorem home_iff (s : State) :
    home s = true ↔ s.link = .Open ∧ s.tap = .SelectDRScan ∧ s.out.clock = false ∧ s.out.trst = true := by
  simp [home, and_assoc]

end Sys2Proof.Machine
end

