-- ==== Sys2Proof/Laws/Effect.lean ====
section
/-! SUPPORT. What any sequence of pin operations can do, said once: it is a move whose events account for the latches and
the tracked machine and whose samples are the environment's next answers (spec 10_state.md R21, R23, R25, R26). -/

namespace Sys2Proof.Machine

theorem sampledLevels_append (a b : List Event) : sampledLevels (a ++ b) = sampledLevels a ++ sampledLevels b := by
  simp [sampledLevels]

theorem answersOf_add (s : State) (n m : Nat) : answersOf s (n + m) = answersOf s n ++ answersOf (consume n s) m := by
  apply List.ext_getElem?
  intro k
  rw [List.getElem?_append]
  simp only [answersOf_getElem?, answersOf_length, answerAt_consume]
  by_cases h : k < n
  · rw [if_pos h, if_pos h, if_pos (by omega)]
  · rw [if_neg h]
    by_cases h2 : k < n + m
    · rw [if_pos h2, if_pos (by omega), Nat.add_sub_cancel' (by omega)]
    · rw [if_neg h2, if_neg (by omega)]

/-- `t` is `s` after a sequence of pin operations. -/
def Effect (s t : State) : Prop :=
  ∃ (o : Latches) (x : Tap) (events : List Event) (n : Nat),
    t = moved o x events n s ∧ events.foldl Port.see s.port = { out := o, tap := x } ∧ sampledLevels events = answersOf s n

theorem Effect.refl (s : State) : Effect s s :=
  ⟨s.out, s.tap, [], 0, (moved_self s).symm, rfl, by simp [sampledLevels, answersOf]⟩

theorem Effect.trans {s t u : State} (h1 : Effect s t) (h2 : Effect t u) : Effect s u := by
  obtain ⟨o, x, es, n, rfl, hp, hs⟩ := h1
  obtain ⟨p, y, fs, m, rfl, hq, hr⟩ := h2
  refine ⟨p, y, es ++ fs, n + m, moved_moved .., ?_, ?_⟩
  · rw [List.foldl_append, hp]; exact hq
  · rw [sampledLevels_append, hs, hr, answersOf_moved, answersOf_add]

section Fields
variable {s t : State} (h : Effect s t)
include h

theorem Effect.link : t.link = s.link := by obtain ⟨o, x, es, n, rfl, -, -⟩ := h; rfl
theorem Effect.lenI : t.lenI = s.lenI := by obtain ⟨o, x, es, n, rfl, -, -⟩ := h; rfl
theorem Effect.lenD : t.lenD = s.lenD := by obtain ⟨o, x, es, n, rfl, -, -⟩ := h; rfl
theorem Effect.params : t.params = s.params := by obtain ⟨o, x, es, n, rfl, -, -⟩ := h; rfl
theorem Effect.host : t.host = s.host := by obtain ⟨o, x, es, n, rfl, -, -⟩ := h; rfl
theorem Effect.response : t.response = s.response := by obtain ⟨o, x, es, n, rfl, -, -⟩ := h; rfl
theorem Effect.answers : t.answers = s.answers := by obtain ⟨o, x, es, n, rfl, -, -⟩ := h; rfl
theorem Effect.asked : t.asked = s.asked := by obtain ⟨o, x, es, n, rfl, -, -⟩ := h; rfl

end Fields

/-! ### The port seen through one write keeps `trst` low in TestLogicReset (R27) -/

theorem Port.see_trst_low (p : Port) (e : Event) (h : p.out.trst = false → p.tap = .TestLogicReset) :
    (p.see e).out.trst = false → (p.see e).tap = .TestLogicReset := by
  cases e with
  | set sig v => cases sig <;> cases v <;> simp_all [Port.see, Port.tapAfter, Latches.set]
  | sample v => exact h
  | wait t => exact h

theorem Port.foldl_trst_low (es : List Event) :
    ∀ p : Port, (p.out.trst = false → p.tap = .TestLogicReset) →
      (es.foldl Port.see p).out.trst = false → (es.foldl Port.see p).tap = .TestLogicReset := by
  induction es with
  | nil => exact fun p h => h
  | cons e rest ih => exact fun p h => ih (p.see e) (Port.see_trst_low p e h)

/-- A sequence of pin operations keeps `trst` low in TestLogicReset (R27). -/
theorem Effect.trst_low {s t : State} (h : Effect s t) (hs : s.out.trst = false → s.tap = .TestLogicReset) :
    t.out.trst = false → t.tap = .TestLogicReset := by
  obtain ⟨o, x, es, n, rfl, hp, -⟩ := h
  have := Port.foldl_trst_low es s.port hs
  rw [hp] at this
  exact this

/-! ### The operations -/

theorem tapAfter_eq_port (x : Signal) (v : Level) (s : State) : tapAfter x v s = s.port.tapAfter x v := by
  cases x <;> cases v <;> simp [tapAfter, Port.tapAfter, State.port]
  by_cases hc : s.out.clock = true <;> by_cases ht : s.out.trst = true <;> simp [hc, ht]

theorem setSignal_effect (x : Signal) (v : Level) (s : State) : Effect s (setSignal x v s) :=
  ⟨_, _, _, 0, setSignal_eq x v s, by simp [Port.see, tapAfter_eq_port, State.port], by simp [sampledLevels, answersOf]⟩

theorem wait_effect (t : Duration) (s : State) : Effect s (wait t s) :=
  ⟨_, _, _, 0, wait_eq t s, rfl, by simp [sampledLevels, answersOf]⟩

theorem readDataOut_effect (s : State) : Effect s (readDataOut s).2 :=
  ⟨s.out, s.tap, [.sample (answerAt s 0)], 1, congrArg Prod.snd (readDataOut_eq s), rfl,
    by simp [sampledLevels, answersOf]⟩

theorem pulse_effect (s : State) : Effect s (pulse s) :=
  (setSignal_effect .clock true s).trans <| (wait_effect .pulse _).trans <|
    (setSignal_effect .clock false _).trans (wait_effect .pulse _)

theorem navCycle_effect (tms : Level) (s : State) : Effect s (navCycle tms s) :=
  (setSignal_effect .mode tms s).trans <| (wait_effect .settle _).trans (pulse_effect _)

theorem shiftCycle_effect (tms tdi sample : Level) (s : State) : Effect s (shiftCycle tms tdi sample s).2 := by
  have h := (setSignal_effect .dataIn tdi s).trans <| (setSignal_effect .mode tms _).trans (wait_effect .settle _)
  cases sample
  · exact h.trans (pulse_effect _)
  · exact h.trans <| (readDataOut_effect _).trans (pulse_effect _)

theorem probeSample_effect (s : State) : Effect s (probeSample s).2 :=
  (wait_effect .settle s).trans (readDataOut_effect _)

theorem toShiftIR_effect (s : State) : Effect s (toShiftIR s) :=
  (navCycle_effect true s).trans <| (navCycle_effect false _).trans (navCycle_effect false _)

theorem toShiftDR_effect (s : State) : Effect s (toShiftDR s) :=
  (navCycle_effect false s).trans (navCycle_effect false _)

theorem exitToHome_effect (s : State) : Effect s (exitToHome s) :=
  (navCycle_effect true s).trans (navCycle_effect true _)

/-- A loop of pin operations is one; `view` picks the state out of what the loop carries. -/
theorem forLoop_effect {α : Type} (view : α → State) (body : Nat → α → α)
    (h : ∀ i a, Effect (view a) (view (body i a))) :
    ∀ (n first : Nat) (a : α), Effect (view a) (view (forLoop body n first a)) := by
  intro n
  induction n with
  | zero => exact fun _ a => Effect.refl _
  | succ n ih => exact fun first a => (h first a).trans (ih (first + 1) (body first a))

end Sys2Proof.Machine
end

