-- ==== Sys2Proof/Laws/Connect.lean ====
section
/-! SUPPORT. The body of CONNECT as one move (spec 41_tap_state_machine.md R112, R121). -/

namespace Sys2Proof.Machine

/-- Five edges with `mode` high lead from any state to TestLogicReset (R112; rests on G entries of R110, log 10). -/
theorem tapNext_five (x : Tap) :
    tapNext (tapNext (tapNext (tapNext (tapNext x true) true) true) true) true = .TestLogicReset := by
  cases x <;> rfl

/-- The five clocks of CONNECT, from any state of the tracked machine. -/
theorem clockToReset_eq (s : State) (hc : s.out.clock = false) (ht : s.out.trst = true) :
    clockToReset s =
      moved { s.out with mode := true } .TestLogicReset (walkEvents [true, true, true, true, true]) 0 s := by
  simp only [clockToReset, Config.nTlr, forLoop]
  rw [navCycle_eq true s hc]
  iterate 4 rw [navCycle_eq true _ (by simp [hc])]
  simp [tapAtEdge, ht, tapNext_five, walkEvents]

/-- The idle pattern leaves the tracked machine alone, also when the clock falls (R121, corner cases). -/
theorem driveIdle_eq (s : State) :
    driveIdle s = moved Latches.idle s.tap
      [.set .clock false, .set .mode true, .set .dataIn false, .set .resetRequest true, .set .trst true] 0 s := by
  simp only [driveIdle, setSignal_eq]
  simp [tapAfter, Latches.idle]

/-- The reset pulse puts the tracked machine in TestLogicReset and releases both lines (R121, R26). -/
theorem resetPulse_eq (s : State) :
    resetPulse s = moved { s.out with resetRequest := true, trst := true } .TestLogicReset
      [.set .trst false, .set .resetRequest false, .wait .reset, .set .trst true, .set .resetRequest true, .wait .reset]
      0 s := by
  simp only [resetPulse, setSignal_eq, wait_eq]
  simp [tapAfter]

/-- The whole body of CONNECT (R121): whatever the start, the idle pattern and the home state. -/
theorem connectSequence_eq (s : State) :
    connectSequence s = moved Latches.idle .SelectDRScan connectEvents 0 s := by
  rw [connectSequence, driveIdle_eq, wait_eq, moved_moved, clockToReset_eq (moved _ _ _ _ _) rfl rfl, resetPulse_eq,
    moved_moved, moved_moved, clockToReset_eq (moved _ _ _ _ _) rfl rfl, navCycle_eq false _ rfl,
    navCycle_eq true _ rfl]
  simp [tapAtEdge, tapNext, connectEvents, walkEvents, Latches.idle]

theorem connectSequence_effect (s : State) : Effect s (connectSequence s) := by
  have five := fun t : State => forLoop_effect (fun a : State => a) (fun _ => navCycle true)
    (fun _ a => navCycle_effect true a) Config.nTlr 1 t
  have idle : Effect s (driveIdle s) :=
    (setSignal_effect ..).trans <| (setSignal_effect ..).trans <| (setSignal_effect ..).trans <|
      (setSignal_effect ..).trans (setSignal_effect ..)
  have reset : ∀ t, Effect t (resetPulse t) := fun t =>
    (setSignal_effect ..).trans <| (setSignal_effect ..).trans <| (wait_effect ..).trans <|
      (setSignal_effect ..).trans <| (setSignal_effect ..).trans (wait_effect ..)
  exact idle.trans <| (wait_effect ..).trans <| (five _).trans <| (reset _).trans <| (five _).trans <|
    (navCycle_effect ..).trans (navCycle_effect ..)

end Sys2Proof.Machine
end

