-- ==== Sys2Proof/Laws/Measure.lean ====
section
/-! SUPPORT. The length probe as one move and one result (spec 43_measure.md R161 to R166). -/

namespace Sys2Proof.Machine

/-! ### The result of a probe -/

theorem probeResult_nil : probeResult [] = none := rfl

theorem probeResult_zero (rest : List Level) : probeResult (false :: rest) = some 1 := by
  simp [probeResult, List.findIdx?_cons]

theorem probeResult_one (rest : List Level) : probeResult (true :: rest) = (probeResult rest).map (· + 1) := by
  simp [probeResult, List.findIdx?_cons, Function.comp_def]

/-- A probe's number is at least 1 and at most the number of answers it may take (R162). -/
theorem probeResult_range {bits : List Level} {n : Nat} (h : probeResult bits = some n) : 1 ≤ n ∧ n ≤ bits.length := by
  induction bits generalizing n with
  | nil => simp [probeResult_nil] at h
  | cons b rest ih =>
    cases b
    · rw [probeResult_zero] at h
      simp at h
      simp [← h]
    · rw [probeResult_one, Option.map_eq_some_iff] at h
      obtain ⟨m, hm, rfl⟩ := h
      have := ih hm
      simp; omega

/-- Overflow is: every answer was 1 (R163). -/
theorem probeResult_none_iff (bits : List Level) : probeResult bits = none ↔ ∀ b ∈ bits, b = true := by
  induction bits with
  | nil => simp [probeResult_nil]
  | cons b rest ih =>
    cases b
    · simp [probeResult_zero]
    · simp [probeResult_one, ih]

theorem probeSamples_pos {maxProbe : Nat} (bits : List Level) (h : 1 ≤ maxProbe) :
    1 ≤ probeSamples maxProbe (probeResult bits) := by
  rcases hr : probeResult bits with _ | n
  · simpa [probeSamples] using h
  · simpa [probeSamples] using (probeResult_range hr).1

theorem probeSamples_succ (m : Nat) (r : Option Nat) :
    probeSamples (m + 1) (r.map (· + 1)) = probeSamples m r + 1 := by
  cases r <;> simp [probeSamples]

theorem probingEvents_cons (b : Level) {rest : List Level} (h : rest ≠ []) :
    probingEvents (b :: rest) = [.wait .settle, .sample b] ++ navEvents false ++ probingEvents rest := by
  cases rest with
  | nil => exact absurd rfl h
  | cons c rest => rfl

/-! ### The loop -/

/-- The sampling loop of `probePath` in a Shift state, with `left` further samples allowed after the next (R161). -/
theorem probeLoop_eq (X : Tap) (hX : tapNext X false = X) :
    ∀ (left n : Nat) (s : State), s.out.clock = false → s.out.trst = true → s.out.mode = false → s.tap = X →
      probeLoop left (n + 1) s =
        ((probeResult (answersOf s (left + 1))).map (· + n),
          moved s.out X
            (probingEvents (answersOf s (probeSamples (left + 1) (probeResult (answersOf s (left + 1))))))
            (probeSamples (left + 1) (probeResult (answersOf s (left + 1)))) s) := by
  intro left
  induction left with
  | zero =>
    intro n s hc ht hm hs
    have h1 : answersOf s 1 = [answerAt s 0] := by simp [answersOf]
    simp only [probeLoop, probeSample_eq, Nat.zero_add, h1, hs]
    cases h : answerAt s 0
    · simp [probeResult_zero, probeSamples, h1, h, probingEvents, Nat.add_comm]
    · simp [probeResult_one, probeResult_nil, probeSamples, h1, h, probingEvents]
  | succ left ih =>
    intro n s hc ht hm hs
    simp only [probeLoop, probeSample_eq, hs]
    rw [answersOf_succ s (left + 1)]
    cases h : answerAt s 0
    · have h1 : answersOf s 1 = [answerAt s 0] := by simp [answersOf]
      simp [probeResult_zero, probeSamples, h1, h, probingEvents, Nat.add_comm]
    · have ho : Latches.mk s.out.clock false s.out.dataIn s.out.resetRequest s.out.trst = s.out := by rw [← hm]
      rw [if_neg (by simp), navCycle_eq _ (moved _ _ _ _ _) hc, tapAtEdge_run (moved _ _ _ _ _) _ ht]
      simp only [moved_out, moved_tap, moved_moved, hX, ho]
      rw [ih (n + 1) (moved _ _ _ _ _) hc ht hm rfl]
      simp only [answersOf_moved, moved_moved, moved_out, probeResult_one, probeSamples_succ]
      have hpos := probeSamples_pos (maxProbe := left + 1) (answersOf (consume 1 s) (left + 1)) (by omega)
      rw [answersOf_succ s (probeSamples _ _), h, probingEvents_cons true (by
        intro hnil
        have := congrArg List.length hnil
        simp at this
        omega)]
      simp [Option.map_map, Function.comp_def, Nat.add_comm, Nat.add_left_comm]

/-- The run of ones in a Shift state (R161): data-in is 1 after it, unless it is empty. -/
theorem probeRun_eq (X : Tap) (hX : tapNext X false = X) :
    ∀ (n first : Nat) (s : State), s.out.clock = false → s.out.trst = true → s.out.mode = false → s.tap = X →
      forLoop (fun _ t => (shiftCycle false true false t).2) n first s =
        moved { s.out with dataIn := if n = 0 then s.out.dataIn else true } X
          (List.replicate n (shiftEvents false true none)).flatten 0 s := by
  intro n
  induction n with
  | zero =>
    intro first s _ _ _ hs
    rw [← hs]
    exact (moved_self s).symm
  | succ n ih =>
    intro first s hc ht hm hs
    rw [forLoop, shiftCycle_eq _ _ _ _ hc, tapAtEdge_run _ _ ht, hs, hX,
      ih (first + 1) (moved { s.out with dataIn := true, mode := false } _ _ _ _) hc ht rfl rfl]
    simp [List.replicate_succ, hm]

/-- One probe from the home state, by a walk to a Shift state `X`, as one move and one result (R161). -/
theorem probePath_eq (X : Tap) (hX : X = .ShiftDR ∨ X = .ShiftIR) (walk : List Level) (toShift : State → State)
    (s : State) (hp : s.params.wf) (hc : s.out.clock = false) (ht : s.out.trst = true)
    (hw : toShift s = moved { s.out with mode := false } X (walkEvents walk) 0 s) :
    let m := s.params.maxProbe
    let result := probeResult (answersOf s m)
    probePath toShift s =
      (result,
        moved { s.out with dataIn := true, mode := true } .SelectDRScan
          (probeTrace walk m (answersOf s (probeSamples m result))) (probeSamples m result) s) := by
  intro m result
  have hx : tapNext X false = X := by rcases hX with h | h <;> simp [h, tapNext]
  have hm : m - 1 + 1 = m := Nat.sub_add_cancel hp
  have he : tapNext X true = .Exit1DR ∨ tapNext X true = .Exit1IR := by rcases hX with h | h <;> simp [h, tapNext]
  have hrun := probeRun_eq X hx m 1 (moved { s.out with mode := false } X (walkEvents walk) 0 s) hc ht rfl rfl
  rw [probePath, hw, probeRun, hrun, moved_moved, probeZero, shiftCycle_eq _ _ _ _ (by simpa using hc),
    tapAtEdge_run _ _ (by simpa using ht), setSignal_eq]
  simp only [moved_tap, moved_out, hx, tapAfter, Latches.set_dataIn, moved_moved, Bool.false_eq_true, if_false,
    Bool.toNat_false]
  rw [probeLoop_eq X hx (m - 1) 0 _ (by simpa using hc) (by simpa using ht) rfl rfl]
  simp only [moved_out, moved_moved]
  rw [shiftCycle_eq _ _ _ _ (by simpa using hc), tapAtEdge_run _ _ (by simpa using ht)]
  simp only [moved_moved, moved_tap]
  rw [exitToHome_eq _ (by simpa using hc) (by simpa using ht) he]
  simp only [hm, answersOf_moved, consume_zero, Nat.zero_add, Nat.add_zero, moved_moved, moved_out]
  refine Prod.ext ?_ ?_
  · simp [result]
  · simp [probeTrace, result]

theorem probeLoop_effect : ∀ (left n : Nat) (s : State), Effect s (probeLoop left n s).2 := by
  intro left
  induction left with
  | zero => exact fun n s => probeSample_effect s
  | succ left ih =>
    intro n s
    rw [probeLoop]
    split
    · exact probeSample_effect s
    · exact (probeSample_effect s).trans <| (navCycle_effect ..).trans (ih _ _)

theorem probePath_effect (toShift : State → State) (h : ∀ t, Effect t (toShift t)) (s : State) :
    Effect s (probePath toShift s).2 :=
  (h s).trans <|
    (forLoop_effect (fun a : State => a) (fun _ t => (shiftCycle false true false t).2)
      (fun _ a => shiftCycle_effect _ _ _ a) s.params.maxProbe 1 (toShift s)).trans <|
    (shiftCycle_effect ..).trans <| (setSignal_effect ..).trans <| (probeLoop_effect ..).trans <|
    (shiftCycle_effect ..).trans (exitToHome_effect _)

theorem probeBoth_effect (s : State) : Effect s (probeBoth s).2 :=
  (probePath_effect toShiftIR toShiftIR_effect s).trans (probePath_effect toShiftDR toShiftDR_effect _)

/-- Both probes from the home state as one move and two results (R160). -/
theorem probeBoth_eq (s : State) (hp : s.params.wf) (hh : home s = true) :
    let m := s.params.maxProbe
    let a := probeResult (answersOf s m)
    let after := consume (probeSamples m a) s
    let b := probeResult (answersOf after m)
    probeBoth s =
      ((a, b),
        moved { s.out with mode := true, dataIn := true } .SelectDRScan
          (probeTrace [true, false, false] m (answersOf s (probeSamples m a))
            ++ probeTrace [false, false] m (answersOf after (probeSamples m b)))
          (probeSamples m a + probeSamples m b) s) := by
  obtain ⟨-, hs, hc, ht⟩ := (home_iff s).mp hh
  intro m a after b
  have h1 := probePath_eq .ShiftIR (Or.inr rfl) [true, false, false] toShiftIR s hp hc ht (toShiftIR_eq s hc ht hs)
  have h2 := probePath_eq .ShiftDR (Or.inl rfl) [false, false] toShiftDR (probePath toShiftIR s).2 (by rw [h1]; exact hp)
    (by rw [h1]; exact hc) (by rw [h1]; exact ht) (toShiftDR_eq _ (by rw [h1]; exact hc) (by rw [h1]; exact ht)
      (by rw [h1]; rfl))
  simp only [probeBoth]
  rw [h2, h1]
  simp only [moved_params, moved_out, moved_moved, answersOf_moved]
  rfl

/-! ### The end of MEASURE -/

theorem recordLengths_some (m n : Nat) (s : State) :
    recordLengths (some m, some n) s =
      respond .OK (lengthWord m) (lengthWord n) { s with lenI := m, lenD := n } := rfl

/-- An overflow on either path clears both lengths (R160, R163). -/
theorem recordLengths_overflow (a b : Option Nat) (s : State) (h : a = none ∨ b = none) :
    recordLengths (a, b) s = raise .Overflow { s with lenI := 0, lenD := 0 } := by
  cases a <;> cases b <;> first | rfl | simp at h

end Sys2Proof.Machine
end

