-- ==== Sys2Proof/Laws/PerInstr.lean ====
section
/-! SUPPORT. Statements about every command as syntax, one lemma per constructor of Instr. -/

namespace Sys2Proof.Laws.EncodedWordSelectsItsRow

/-- The encoded word of a command is selected by the command's row of the match and mask table
(spec 30_encoding.md R71 against R75). -/
def Statement (i : Instr) : Prop := i.row.selects (encode i) = true

/-- The mask of format S by fields: `op` and the reserved bits count, `width` and `value` do not. -/
theorem maskS_fields : (0xFFC000000000#48) = (15#4 ++ 15#4) ++ ((3#2 ++ 0#6) ++ 0#32) := by decide

/-- A word of format S under its mask keeps only its operation. -/
theorem wordS_masked (op : BitVec 4) (width : BitVec 6) (value : Word) :
    wordS op width value &&& 0xFFC000000000#48 = wordS op 0 0 := by
  have hop : op &&& 15#4 = op := BitVec.and_allOnes
  rw [maskS_fields, wordS, BitVec.and_append, BitVec.and_append, BitVec.and_append, BitVec.and_append]
  simp [wordS, hop]

theorem openLink : Statement .openLink := by unfold Statement; decide
theorem closeLink : Statement .closeLink := by unfold Statement; decide
theorem setsig (sig : BitVec 3) (level : Level) : Statement (.setsig sig level) := by
  unfold Statement; revert sig level; decide
theorem rdtdo : Statement .rdtdo := by unfold Statement; decide
theorem connect : Statement .connect := by unfold Statement; decide
theorem shiftIr (width : BitVec 6) (value : Word) : Statement (.shiftIr width value) := by
  simp only [Statement, Row.selects, Instr.row, encode]
  exact beq_iff_eq.mpr (wordS_masked 6 width value)
theorem shiftDr (width : BitVec 6) (value : Word) : Statement (.shiftDr width value) := by
  simp only [Statement, Row.selects, Instr.row, encode]
  exact beq_iff_eq.mpr (wordS_masked 7 width value)
theorem measure : Statement .measure := by unfold Statement; decide
theorem execInReset (width : BitVec 6) (value : Word) : Statement (.execInReset width value) := by
  simp only [Statement, Row.selects, Instr.row, encode]
  exact beq_iff_eq.mpr (wordS_masked 9 width value)

end Sys2Proof.Laws.EncodedWordSelectsItsRow
end

