-- ==== Sys2Proof/Laws/Refusal.lean ====
section
/-! SUPPORT. When a command is refused and when it is not, said once for each list of refusals (spec
60_exceptions.md R176). -/

namespace Sys2Proof.Machine

theorem widthRefusal_legal {W : Nat} (h1 : 1 ≤ W) (h2 : W ≤ 32) : widthRefusal W = none := by
  unfold widthRefusal Config.maxWidth
  exact if_neg (by omega)

theorem widthRefusal_illegal {W : Nat} (h : W = 0 ∨ 32 < W) : widthRefusal W = some .BadWidth := if_pos h

theorem linkRefusal_open {s : State} (h : s.link = .Open) : linkRefusal s = none := by simp [linkRefusal, h]
theorem linkRefusal_closed {s : State} (h : s.link = .Closed) : linkRefusal s = some .LinkNotOpen := by
  simp [linkRefusal, h]
theorem linkRefusal_failed {s : State} (h : s.link = .Failed) : linkRefusal s = some .LinkFailed := by
  simp [linkRefusal, h]

section Shift
variable {len P W : Nat} {s : State}

theorem shiftRefusal_link {e : Status} (h : linkRefusal s = some e) : shiftRefusal len P W s = some e := by
  simp [shiftRefusal, h]

theorem shiftRefusal_width (h : s.link = .Open) (hW : W = 0 ∨ 32 < W) : shiftRefusal len P W s = some .BadWidth := by
  simp [shiftRefusal, linkRefusal_open h, widthRefusal_illegal hW]

theorem shiftRefusal_away (h : s.link = .Open) (h1 : 1 ≤ W) (h2 : W ≤ 32) (hh : home s = false) :
    shiftRefusal len P W s = some .NotHome := by
  simp [shiftRefusal, linkRefusal_open h, widthRefusal_legal h1 h2, homeRefusal, hh]

theorem shiftRefusal_tooWide (h1 : 1 ≤ W) (h2 : W ≤ 32) (hh : home s = true) (hl : len ≠ 0) (hf : len < P + W) :
    shiftRefusal len P W s = some .ShiftTooWide := by
  simp [shiftRefusal, linkRefusal_open ((home_iff s).mp hh).1, widthRefusal_legal h1 h2, homeRefusal, hh, fitRefusal, hl,
    hf]

theorem shiftRefusal_none (h1 : 1 ≤ W) (h2 : W ≤ 32) (hh : home s = true) (hf : len = 0 ∨ P + W ≤ len) :
    shiftRefusal len P W s = none := by
  have : fitRefusal len P W = none := if_neg (by omega)
  simp [shiftRefusal, linkRefusal_open ((home_iff s).mp hh).1, widthRefusal_legal h1 h2, homeRefusal, hh, this]

/-- A shift that is not refused starts at home, has a legal width and fits. -/
theorem shiftRefusal_eq_none (h : shiftRefusal len P W s = none) :
    home s = true ∧ 1 ≤ W ∧ W ≤ 32 ∧ (len = 0 ∨ P + W ≤ len) := by
  simp only [shiftRefusal, Option.or_eq_none_iff] at h
  obtain ⟨-, hw, hh, hf⟩ := h
  have hw' : ¬(W = 0 ∨ 32 < W) := fun h' => by simp [widthRefusal_illegal h'] at hw
  have hf' : ¬(len ≠ 0 ∧ len < P + W) := fun h' => by simp [fitRefusal, h'] at hf
  refine ⟨?_, by omega, by omega, by omega⟩
  by_contra hn
  simp [homeRefusal, hn] at hh

end Shift

section Measure
variable {s : State}

theorem measureRefusal_link {e : Status} (h : linkRefusal s = some e) : measureRefusal s = some e := by
  simp [measureRefusal, h]

theorem measureRefusal_away (h : s.link = .Open) (hh : home s = false) : measureRefusal s = some .NotHome := by
  simp [measureRefusal, linkRefusal_open h, homeRefusal, hh]

theorem measureRefusal_none (hh : home s = true) : measureRefusal s = none := by
  simp [measureRefusal, linkRefusal_open ((home_iff s).mp hh).1, homeRefusal, hh]

theorem measureRefusal_eq_none (h : measureRefusal s = none) : home s = true := by
  simp only [measureRefusal, homeRefusal, Option.or_eq_none_iff] at h
  by_contra hh
  simp [hh] at h

end Measure

end Sys2Proof.Machine
end

