-- ==== Sys2Proof/Laws/Shift.lean ====
section
/-! SUPPORT. The scan as one move: what it drives, samples and returns (spec 42_shift_ops.md R141, R148 to R150). -/

namespace Sys2Proof.Machine

/-! ### Bits of words -/

theorem getLsbD_setBit (r : Word) (k j : Nat) (b : Level) (hj : j < 32) :
    (setBit r k b).getLsbD j = if j = k then b else r.getLsbD j := by
  unfold setBit
  cases b <;> by_cases h : j = k
  all_goals
    simp [h, hj, BitVec.getLsbD_shiftLeft]
    try omega

theorem getLsbD_levelWord (b : Level) (k : Nat) : (levelWord b).getLsbD k = (decide (k = 0) && b) := by
  cases b <;> simp [levelWord, BitVec.getLsbD_one]

/-- Bit `k` of the number written by `bits` is the `k`-th of them (R52). -/
theorem getLsbD_wordOf (bits : List Level) (k : Nat) (hk : k < 32) : (wordOf bits).getLsbD k = bits.getD k false := by
  induction bits generalizing k with
  | nil => simp [wordOf]
  | cons b rest ih =>
    rcases k with _ | k
    · cases b <;> simp [wordOf, levelWord]
    · have := ih k (by omega)
      simp only [wordOf, BitVec.getLsbD_or, BitVec.getLsbD_shiftLeft, getLsbD_levelWord]
      simp [hk, this]

/-! ### The lines of a scan -/

theorem drivenBits_length (v : Word) {W P L : Nat} (h : P + W ≤ L) : (drivenBits v W P L).length = L := by
  simp [drivenBits, lowBits]
  omega

/-- Cycle `i` drives the `i`-th of the driven bits (R53). -/
theorem drivenBits_getD (v : Word) {W P L i : Nat} (h : P + W ≤ L) (hi : i < L) :
    (drivenBits v W P L).getD i false = scanTdi v W (L - P - W) i := by
  simp only [drivenBits, lowBits, scanTdi, List.getD_eq_getElem?_getD, List.append_assoc]
  split
  · rw [List.getElem?_append_left (by simpa using ‹_›)]
    rw [List.getElem?_replicate, if_pos ‹_›]
    rfl
  · rw [List.getElem?_append_right (by simp; omega)]
    split
    · rw [List.getElem?_append_left (by simp; omega)]
      simp only [List.length_replicate, List.getElem?_map]
      rw [List.getElem?_range (by omega)]
      rfl
    · rw [List.getElem?_append_right (by simp; omega)]
      rw [List.getElem?_replicate, if_pos (by simp; omega)]
      rfl

/-! ### The loop of a scan -/

/-- The events of cycle `j` of a scan whose sample, if one is taken, answers `b`. -/
def cycleEvents (v : Word) (W lead L j : Nat) (b : Level) : List Event :=
  shiftEvents (j + 1 == L) (scanTdi v W lead j) (if j < lead + W then some b else none)

/-- The last `n + 1` cycles of a scan, from cycle `i` in a Shift state: what they do to the state. -/
theorem scanLoop_state (v : Word) (W lead L : Nat) (X : Tap) (hX : X = .ShiftDR ∨ X = .ShiftIR) (hL : lead + W ≤ L) :
    ∀ (n i : Nat) (r : Word) (s : State), i + n + 1 = L → s.out.clock = false → s.out.trst = true → s.tap = X →
      (forLoop (scanCycle v W lead L) (n + 1) i (r, s)).2 =
        moved { s.out with dataIn := scanTdi v W lead (i + n), mode := true } (tapNext X true)
          ((List.range' i (n + 1)).flatMap (fun j => cycleEvents v W lead L j (answerAt s (j - i))))
          (lead + W - i) s := by
  intro n
  induction n with
  | zero =>
    intro i r s hi hc ht hs
    simp only [forLoop, scanCycle]
    rw [shiftCycle_eq _ _ _ _ hc, tapAtEdge_run _ _ ht, hs]
    have h1 : (i + 1 == L) = true := by simpa using hi
    have h2 : lead + W - i = (decide (i < lead + W)).toNat := by
      by_cases h : i < lead + W <;> simp [h] <;> omega
    simp [h1, h2, cycleEvents]
  | succ n ih =>
    intro i r s hi hc ht hs
    rw [forLoop]
    simp only [scanCycle]
    rw [shiftCycle_eq _ _ _ _ hc, tapAtEdge_run _ _ ht, hs]
    have h1 : (i + 1 == L) = false := by simp; omega
    have hx : tapNext X false = X := by rcases hX with h | h <;> simp [h, tapNext]
    rw [h1, hx, ih (i + 1) _ _ (by omega) (by simpa using hc) (by simpa using ht) (by simp)]
    simp only [moved_moved, moved_out, answerAt_moved]
    have hn : (decide (i < lead + W)).toNat + (lead + W - (i + 1)) = lead + W - i := by
      by_cases h : i < lead + W <;> simp [h] <;> omega
    have hv : (List.range' (i + 1) (n + 1)).flatMap
          (fun j => cycleEvents v W lead L j (answerAt s ((decide (i < lead + W)).toNat + (j - (i + 1))))) =
        (List.range' (i + 1) (n + 1)).flatMap (fun j => cycleEvents v W lead L j (answerAt s (j - i))) := by
      refine List.flatMap_congr fun j hj => ?_
      have hj := (List.mem_range'_1.mp hj).1
      unfold cycleEvents
      by_cases h : j < lead + W
      · have : (decide (i < lead + W)).toNat + (j - (i + 1)) = j - i := by
          have : i < lead + W := by omega
          simp [this]; omega
        rw [this]
      · simp [h]
    rw [hn, hv, show i + 1 + n = i + (n + 1) by omega, List.range'_succ (n := n + 1), List.flatMap_cons]
    simp only [cycleEvents, h1, Nat.sub_self, decide_eq_true_eq]

/-- The kept bits of a scan (R141): bit `k` is the answer of cycle `lead + k`. -/
theorem scanLoop_bit (v : Word) (W lead L : Nat) (hL : lead + W ≤ L) :
    ∀ (n i : Nat) (r : Word) (s : State) (k : Nat), i + n = L → s.out.clock = false → k < 32 →
      (forLoop (scanCycle v W lead L) n i (r, s)).1.getLsbD k =
        if k < W ∧ i ≤ lead + k then answerAt s (lead + k - i) else r.getLsbD k := by
  intro n
  induction n with
  | zero =>
    intro i r s k hi _ _
    rw [forLoop, if_neg (by omega)]
  | succ n ih =>
    intro i r s k hi hc hk
    rw [forLoop]
    simp only [scanCycle]
    rw [shiftCycle_eq _ _ _ _ hc]
    rw [ih (i + 1) _ _ k (by omega) (by simpa using hc) hk]
    simp only [answerAt_moved]
    by_cases h : i < lead + W
    · simp only [h, decide_true, if_true, Bool.toNat_true]
      by_cases hl : lead ≤ i
      · rw [if_pos hl, getLsbD_setBit _ _ _ _ hk]
        by_cases h1 : k < W ∧ i + 1 ≤ lead + k
        · rw [if_pos h1, if_pos ⟨h1.1, by omega⟩]
          congr 1; omega
        · rw [if_neg h1]
          by_cases h2 : k = i - lead
          · rw [if_pos h2, if_pos ⟨by omega, by omega⟩]
            congr 1; omega
          · rw [if_neg h2, if_neg (by omega)]
      · rw [if_neg hl]
        by_cases h1 : k < W ∧ i + 1 ≤ lead + k
        · rw [if_pos h1, if_pos ⟨h1.1, by omega⟩]
          congr 1; omega
        · rw [if_neg h1, if_neg (by omega)]
    · simp only [h, decide_false, Bool.false_eq_true, if_false]
      rw [if_neg (by omega), if_neg (by omega)]

/-- The scan from a Shift state as one move and one result (R141). -/
theorem scanShift_eq (v : Word) (W P L : Nat) (s : State) (hW : 1 ≤ W) (hW32 : W ≤ 32) (hL : P + W ≤ L)
    (hc : s.out.clock = false) (ht : s.out.trst = true) (hs : s.tap = .ShiftDR ∨ s.tap = .ShiftIR) :
    scanShift v W P L s =
      (wordOf ((answersOf s (L - P)).drop (L - P - W)),
        moved { s.out with dataIn := lastDriven v W P, mode := true } (tapNext s.tap true)
          (scanEvents (drivenBits v W P L) (answersOf s (L - P))) (L - P) s) := by
  have hlead : L - P - W + W = L - P := by omega
  refine Prod.ext ?_ ?_
  · apply BitVec.eq_of_getLsbD_eq
    intro k hk
    rw [scanShift, scanLoop_bit v W (L - P - W) L (by omega) L 0 0 s k (by omega) hc hk, getLsbD_wordOf _ _ hk]
    simp only [List.getD_eq_getElem?_getD, List.getElem?_drop, answersOf_getElem?, Nat.zero_le, and_true, Nat.sub_zero]
    by_cases h : k < W
    · rw [if_pos h, if_pos (by omega)]; rfl
    · rw [if_neg h, if_neg (by omega)]; simp
  · obtain ⟨n, rfl⟩ : ∃ n, L = n + 1 := ⟨L - 1, by omega⟩
    rw [scanShift, scanLoop_state v W (n + 1 - P - W) (n + 1) s.tap hs (by omega) n 0 0 s (by omega) hc ht rfl]
    have he : (List.range' 0 (n + 1)).flatMap
          (fun j => cycleEvents v W (n + 1 - P - W) (n + 1) j (answerAt s (j - 0))) =
        scanEvents (drivenBits v W P (n + 1)) (answersOf s (n + 1 - P)) := by
      simp only [scanEvents, drivenBits_length v hL, List.range_eq_range']
      refine List.flatMap_congr fun j hj => ?_
      have hj := (List.mem_range'_1.mp hj).2
      rw [drivenBits_getD v hL (by omega), answersOf_getElem?]
      simp only [cycleEvents, hlead, Nat.sub_zero, beq_eq_decide]
    have hd : scanTdi v W (n + 1 - P - W) (0 + n) = lastDriven v W P := by
      unfold scanTdi lastDriven
      by_cases hP : 0 < P
      · rw [if_neg (by omega), if_neg (by omega), if_pos hP]
      · rw [if_neg (by omega), if_pos (by omega), if_neg hP]
        congr 1; omega
    rw [he, hd, Nat.sub_zero, hlead]

/-! ### The shift commands, once accepted -/

theorem pathLen_fits {len P W : Nat} (h : len = 0 ∨ P + W ≤ len) : P + W ≤ pathLen len P W := by
  unfold pathLen
  split <;> omega

/-- An accepted instruction shift as one move and one result (R145). -/
theorem instructionShift_eq (W : Nat) (v : Word) (s : State) (hW : 1 ≤ W) (hW32 : W ≤ 32)
    (hfit : s.lenI = 0 ∨ s.params.irOffset + W ≤ s.lenI)
    (hc : s.out.clock = false) (ht : s.out.trst = true) (hs : s.tap = .SelectDRScan) :
    let P := s.params.irOffset
    let L := pathLen s.lenI P W
    instructionShift W v s =
      (wordOf ((answersOf s (L - P)).drop (L - P - W)),
        moved { s.out with dataIn := lastDriven v W P, mode := true } .SelectDRScan
          (shiftTrace [true, false, false] v W P L (answersOf s (L - P))) (L - P) s) := by
  intro P L
  simp only [instructionShift]
  rw [toShiftIR_eq s hc ht hs, scanShift_eq v W P L _ hW hW32 (pathLen_fits hfit) (by simpa using hc) (by simpa using ht)
    (by simp), exitToHome_eq _ (by simpa using hc) (by simpa using ht) (by simp [tapNext])]
  simp [answersOf_moved, shiftTrace]

/-- An accepted data shift as one move and one result (R146). -/
theorem dataShift_eq (W : Nat) (v : Word) (s : State) (hW : 1 ≤ W) (hW32 : W ≤ 32)
    (hfit : s.lenD = 0 ∨ s.params.drOffset + W ≤ s.lenD)
    (hc : s.out.clock = false) (ht : s.out.trst = true) (hs : s.tap = .SelectDRScan) :
    let P := s.params.drOffset
    let L := pathLen s.lenD P W
    dataShift W v s =
      (wordOf ((answersOf s (L - P)).drop (L - P - W)),
        moved { s.out with dataIn := lastDriven v W P, mode := true } .SelectDRScan
          (shiftTrace [false, false] v W P L (answersOf s (L - P))) (L - P) s) := by
  intro P L
  simp only [dataShift]
  rw [toShiftDR_eq s hc ht hs, scanShift_eq v W P L _ hW hW32 (pathLen_fits hfit) (by simpa using hc) (by simpa using ht)
    (by simp), exitToHome_eq _ (by simpa using hc) (by simpa using ht) (by simp [tapNext])]
  simp [answersOf_moved, shiftTrace]

theorem scanShift_effect (v : Word) (W P L : Nat) (s : State) : Effect s (scanShift v W P L s).2 :=
  forLoop_effect (fun a : Word × State => a.2) (scanCycle v W (L - P - W) L)
    (fun _ a => shiftCycle_effect _ _ _ a.2) L 0 (0, s)

theorem instructionShift_effect (W : Nat) (v : Word) (s : State) : Effect s (instructionShift W v s).2 :=
  (toShiftIR_effect s).trans <| (scanShift_effect ..).trans (exitToHome_effect _)

theorem dataShift_effect (W : Nat) (v : Word) (s : State) : Effect s (dataShift W v s).2 :=
  (toShiftDR_effect s).trans <| (scanShift_effect ..).trans (exitToHome_effect _)

end Sys2Proof.Machine
end

