-- ==== Sys2Proof/Tests/Slice0.lean ====
section
/-! SUPPORT. The model's own tests: ill-formed commands are refused, words of the spec decode, single commands give the
results of spec/95_test_vectors.md (V1 to V13; "[V<n>]" names the vector an expected value was taken from), and a witness
for the hypotheses of every statement that has some. -/

namespace Sys2Proof.Tests

open Sys2Proof.Machine

/-! ### Helpers -/

/-- The state after a command. -/
def after (i : Instr) (s : State) : State :=
  match exec i s with
  | .next t => t
  | .fault _ => s
  | .refused _ => s

/-- The state after one step. -/
def afterStep (s : State) : State :=
  match step s with
  | .next t => t
  | .fault _ => s
  | .refused _ => s

/-- The response of a command. -/
def reply (i : Instr) (s : State) : Option Response := (after i s).response

/-- The events a command adds to the trace. -/
def eventsOf (i : Instr) (s : State) : List Event := (after i s).trace.drop s.trace.length

/-- A trace without its `Wait` events, as the vectors write it. -/
def noWaits (events : List Event) : List Event :=
  events.filter (fun e => match e with
    | .wait _ => false
    | .set _ _ => true
    | .sample _ => true)

/-- The response `(OK, r0, 0)`. -/
def ok (r0 : Word) : Option Response := some { status := .OK, r0 := r0, r1 := 0 }

/-- The response `(e, 0, 0)`. -/
def refusedWith (e : Status) : Option Response := some { status := e, r0 := 0, r1 := 0 }

/-- "Start: home" of the vectors, with the offsets, the probe bound and the environment's answers given. -/
def homeState (irOffset drOffset maxProbe lenI lenD : Nat) (samples : List Level) : State :=
  { State.reset with
    link := .Open, tap := .SelectDRScan, lenI := lenI, lenD := lenD
    params := { irOffset := irOffset, drOffset := drOffset, maxProbe := maxProbe }, samples := samples }

/-- Home with no chain, nothing measured, `MAX_PROBE` 8. -/
def home0 (samples : List Level) : State := homeState 0 0 8 0 0 samples

/-- The state right after OPEN. -/
def opened : State := { State.reset with link := .Open, params := { irOffset := 0, drOffset := 0, maxProbe := 8 } }

/-- The state after a failed OPEN. -/
def failed : State := { opened with link := .Failed }

/-- The state before OPEN. -/
def closed : State := { opened with link := .Closed }

/-- The host issues `w` next, and then resets the engine. -/
def hosting (w : Command) (s : State) : State := { s with host := [.command w, .engineReset] }

/-- The bits of `v`, least significant first. -/
def bitsOf (v : Word) (n : Nat) : List Level := (List.range n).map v.getLsbD

/-- `n<m>` of the vectors. -/
def n (m : Level) : List Event := [.set .mode m, .set .clock true, .set .clock false]

/-- `s<m><d><b>` of the vectors. -/
def sc (m d b : Level) : List Event := [.set .dataIn d, .set .mode m, .sample b, .set .clock true, .set .clock false]

/-- `s<m><d>-` of the vectors. -/
def sn (m d : Level) : List Event := [.set .dataIn d, .set .mode m, .set .clock true, .set .clock false]

/-- A target that agrees with `s`, with two paths and what they capture. -/
def targetOf (s : State) (ir irCapture dr drCapture : List Level) : Target :=
  { port := s.port, trstWired := true, irStages := ir, drStages := dr, irCapture := irCapture, drCapture := drCapture }

/-! ### Well-formedness: one ill-formed term for each check -/

theorem test_wf_signal_refuses_5 : (Instr.setsig 5 true).wellFormed = false := by decide
theorem test_wf_signal_takes_4 : (Instr.setsig 4 true).wellFormed = true := by decide
theorem test_wf_shiftIr_refuses_0 : (Instr.shiftIr 0 1).wellFormed = false := by decide
theorem test_wf_shiftDr_refuses_33 : (Instr.shiftDr 33 1).wellFormed = false := by decide
theorem test_wf_execInReset_refuses_63 : (Instr.execInReset 63 1).wellFormed = false := by decide
theorem test_wf_widths_1_and_32 : (Instr.shiftIr 1 0).wellFormed = true ∧ (Instr.shiftDr 32 0).wellFormed = true := by
  decide

/-! ### Decoding: words written out in V13 and from R71, R75 -/

theorem test_decode_format_n :
    decode 0x010000000000 = .ok .openLink ∧ decode 0x020000000000 = .ok .closeLink ∧ decode 0x040000000000 = .ok .rdtdo
      ∧ decode 0x050000000000 = .ok .connect ∧ decode 0x080000000000 = .ok .measure := by decide

theorem test_decode_setsig :
    decode 0x030000000000 = .ok (.setsig 0 false) ∧ decode 0x030000000001 = .ok (.setsig 0 true)
      ∧ decode 0x030100000001 = .ok (.setsig 1 true) ∧ decode 0x030200000001 = .ok (.setsig 2 true)
      ∧ decode 0x030300000000 = .ok (.setsig 3 false) ∧ decode 0x030400000001 = .ok (.setsig 4 true)
      ∧ decode 0x030500000000 = .ok (.setsig 5 false) := by decide

theorem test_decode_shifts :
    decode 0x060400000002 = .ok (.shiftIr 4 0x2) ∧ decode 0x0601FFFFFFFE = .ok (.shiftIr 1 0xFFFFFFFE)
      ∧ decode 0x071000001234 = .ok (.shiftDr 16 0x1234) ∧ decode 0x0720FFFFFFFF = .ok (.shiftDr 32 0xFFFFFFFF)
      ∧ decode 0x073F00000000 = .ok (.shiftDr 63 0) ∧ decode 0x090400000005 = .ok (.execInReset 4 0x5) := by decide

theorem test_decode_illegal :
    decode 0x000000000000 = .error .noSuchOperation ∧ decode 0x0A0000000000 = .error .noSuchOperation
      ∧ decode 0x100000000000 = .error .noSuchOperation ∧ decode 0x064400000002 = .error .reservedBitSet
      ∧ decode 0x030000000002 = .error .reservedBitSet ∧ decode 0x010000000001 = .error .reservedBitSet
      ∧ decode 0x034000000000 = .error .reservedBitSet := by decide

theorem test_encode_words :
    encode (.setsig 3 false) = 0x030300000000 ∧ encode (.shiftDr 16 0x1234) = 0x071000001234
      ∧ encode (.execInReset 4 0x5) = 0x090400000005 ∧ encode .measure = 0x080000000000 := by decide

theorem test_table_word : decodeTableWord 48 0x090400000005 = some (.execInReset 4 0x5) ∧ decodeTableWord 48 0 = none := by
  decide

/-- The word placed by `withFetchWord` is the first to run after reset. -/
theorem test_fetch_word :
    (afterStep (State.reset.withFetchWord 48 0x060400000002)).response = refusedWith .LinkNotOpen
      ∧ (afterStep (State.reset.withFetchWord 48 0)).response = refusedWith .IllegalCommand := by decide

theorem test_fetch_word_only_adds_to_host :
    State.reset.withFetchWord 48 0x040000000000 = { State.reset with host := [.command 0x040000000000] } := rfl

/-! ### Text (R81, R82) -/

theorem test_assemble :
    assembleWord "SHIFT_IR 4, 0x2".toList = some 0x060400000002
      ∧ assembleWord "SETSIG reset-request, 0".toList = some 0x030300000000
      ∧ assembleWord "SETSIG 5, 0".toList = some 0x030500000000
      ∧ assembleWord "RDTDO".toList = some 0x040000000000
      ∧ assembleWord "RDTDO 1".toList = none := by decide

theorem test_assemble_long :
    assembleWord "EXEC_IN_RESET 4, 0x5".toList = some 0x090400000005
      ∧ assembleWord "SHIFT_DR 32, 0xFFFFFFFF".toList = some 0x0720FFFFFFFF := by decide

/-- The words of P3, the disconnect sequence, with its placeholder codes. -/
theorem test_disconnect_words :
    (Pseudo.disconnect false 0x5 0x2).expand.map encode =
      [0x030300000000, 0x090400000005, 0x060400000002, 0x030300000001, 0x030400000001, 0x020000000000] := by decide

/-! ### Single commands -/

/-- [V9] The three answers to OPEN. -/
theorem test_open_answers :
    reply .openLink { closed with answers := [.Found] } = ok 0
      ∧ reply .openLink { closed with answers := [.Busy] } = refusedWith .AdapterBusy
      ∧ (after .openLink { closed with answers := [.NotFound] }).link = .Failed
      ∧ reply .openLink opened = refusedWith .LinkAlreadyOpen := by decide

/-- OPEN writes the idle pattern and leaves `tap` and the lengths alone (R91). -/
theorem test_open_keeps_tap_and_lengths :
    let t := after .openLink { homeState 0 0 8 4 1 [] with link := .Closed, answers := [.Found, .Busy] }
    t.tap = .SelectDRScan ∧ t.lenI = 4 ∧ t.answers = [.Busy] ∧ t.trace.length = 5 := by decide

/-- [V9] CLOSE is always accepted and Failed stays. -/
theorem test_close : reply .closeLink failed = ok 0 ∧ (after .closeLink failed).link = .Failed
    ∧ (after .closeLink opened).link = .Closed ∧ eventsOf .closeLink opened = [] := by decide

/-- [V9] At home with `mode` 1 a rising edge goes to SelectIRScan, and the clock is high. -/
theorem test_setsig_rising_edge :
    let t := after (.setsig 0 true) (home0 [])
    t.tap = .SelectIRScan ∧ reply (.shiftIr 4 0x2) t = refusedWith .NotHome ∧ (after (.setsig 0 true) t).tap = t.tap := by
  decide

/-- [V9] `trst` low forces TestLogicReset, and released it stays there. -/
theorem test_setsig_trst :
    let t := after (.setsig 4 false) (home0 [])
    t.tap = .TestLogicReset ∧ (after (.setsig 4 true) t).tap = .TestLogicReset
      ∧ (after (.setsig 0 true) { t with out := { t.out with mode := false } }).tap = .TestLogicReset := by decide

/-- RDTDO waits, samples and returns the level (R96), [V10 b]. -/
theorem test_rdtdo :
    reply .rdtdo { opened with samples := [true] } = ok 1 ∧ reply .rdtdo { opened with samples := [false, true] } = ok 0
      ∧ eventsOf .rdtdo { opened with samples := [true] } = [.wait .settle, .sample true] := by decide

set_option maxRecDepth 10000 in
/-- [V8] CONNECT from ShiftDR: home, 12 pulses, 45 `Set` events. -/
theorem test_connect :
    let t := after .connect { opened with tap := .ShiftDR, out := { opened.out with trst := false } }
    home t = true ∧ t.out = Latches.idle ∧ clockPulses t.trace = 12 ∧ (noWaits t.trace).length = 45 := by decide

set_option maxRecDepth 10000 in
/-- [V1] SHIFT_IR 4, 0x2 with answers 1, 0, 1, 1. -/
theorem test_shiftIr :
    let s := home0 [true, false, true, true]
    reply (.shiftIr 4 0x2) s = ok 0xD
      ∧ noWaits (eventsOf (.shiftIr 4 0x2) s) =
          n true ++ n false ++ n false ++ sc false false true ++ sc false true false ++ sc false false true
            ++ sc true false true ++ n true ++ n true := by decide

set_option maxRecDepth 10000 in
/-- [V2] SHIFT_IR in a chain: fill zeros, the operand, ones; the first two answers are discarded. -/
theorem test_shiftIr_in_a_chain :
    let s := homeState 3 0 16 9 0 [true, false, true, false, false, true]
    reply (.shiftIr 4 0x7) s = ok 0x9
      ∧ noWaits (eventsOf (.shiftIr 4 0x7) s) =
          n true ++ n false ++ n false ++ sc false false true ++ sc false false false ++ sc false true true
            ++ sc false true false ++ sc false true false ++ sc false false true ++ sn false true ++ sn false true
            ++ sn true true ++ n true ++ n true := by decide

set_option maxRecDepth 10000 in
/-- [V4] SHIFT_DR of full width. -/
theorem test_shiftDr_full_width :
    let t := after (.shiftDr 32 0xFFFFFFFF) (home0 (bitsOf 0x01F2401D 32))
    t.response = ok 0x01F2401D ∧ clockPulses t.trace = 36 ∧ home t = true ∧ t.out.dataIn = true := by decide

set_option maxRecDepth 10000 in
/-- [V5] SHIFT_DR in a chain. -/
theorem test_shiftDr_in_a_chain :
    let s := homeState 0 1 32 0 20 ([true, true, false] ++ bitsOf 0xA55A 16 ++ [false])
    let t := after (.shiftDr 16 0x8001) s
    t.response = ok 0xA55A ∧ clockPulses t.trace = 24 ∧ (sampledLevels t.trace).length = 19 := by decide

set_option maxRecDepth 10000 in
/-- [V6] MEASURE of paths of 4 and 1 stages. -/
theorem test_measure :
    let t := after .measure (home0 [true, true, true, false, false, true])
    t.response = some { status := .OK, r0 := 4, r1 := 1 } ∧ t.lenI = 4 ∧ t.lenD = 1 ∧ clockPulses t.trace = 32
      ∧ t.samples = [true] ∧ t.out.dataIn = true := by decide

set_option maxRecDepth 10000 in
/-- [V7 c] The instruction probe overflows, the data probe runs all the same. -/
theorem test_measure_overflow :
    let t := after .measure (homeState 0 0 4 4 1 [true, true, true, true, false])
    t.response = refusedWith .Overflow ∧ t.lenI = 0 ∧ t.lenD = 0 ∧ clockPulses t.trace = 24
      ∧ (sampledLevels t.trace).length = 5 ∧ home t = true := by decide

set_option maxRecDepth 10000 in
/-- [V11] EXEC_IN_RESET 4, 0x5 with answers 1, 0, 0, 1. -/
theorem test_execInReset :
    let s := home0 [true, false, false, true]
    reply (.execInReset 4 0x5) s = ok 0x9
      ∧ noWaits (eventsOf (.execInReset 4 0x5) s) =
          [.set .resetRequest false] ++ n true ++ n false ++ n false ++ sc false true true ++ sc false false false
            ++ sc false true false ++ sc true false true ++ n true ++ n true ++ [.set .resetRequest true] := by decide

/-- [V9] EXEC_IN_RESET away from home touches nothing. -/
theorem test_execInReset_away : after (.execInReset 4 0x1) opened = answered .NotHome opened := by decide

/-- [V9] The order of refusals. -/
theorem test_refusal_order :
    reply (.shiftIr 0 0) closed = refusedWith .LinkNotOpen ∧ reply (.setsig 7 false) closed = refusedWith .LinkNotOpen
      ∧ reply (.shiftIr 0 0) failed = refusedWith .LinkFailed ∧ reply .openLink failed = refusedWith .LinkFailed
      ∧ reply (.shiftDr 33 0) opened = refusedWith .BadWidth ∧ reply .measure opened = refusedWith .NotHome
      ∧ reply (.setsig 5 true) opened = refusedWith .BadSignal := by decide

/-- [V9] The fit of a shift, and what is tested before it. -/
theorem test_fit :
    let s := homeState 0 0 8 4 8 []
    reply (.shiftIr 5 0) s = refusedWith .ShiftTooWide ∧ reply (.shiftDr 16 0) s = refusedWith .ShiftTooWide
      ∧ reply (.shiftDr 40 0) s = refusedWith .BadWidth := by decide

set_option maxRecDepth 10000 in
/-- [V2] The reference instruction path at UpdateIR. -/
theorem test_reference_path :
    let s := homeState 3 0 16 9 0 [true, false, true, false, false, true]
    let g := targetOf s [] [true, false, true, false, false, true, true, false, false] [true] [false]
    let es := eventsOf (.shiftIr 4 0x7) s
    g.answers es = true
      ∧ (g.after es).irStages = [false, false, true, true, true, false, true, true, true]
      ∧ (g.after es).drStages = [true] := by decide

/-! ### Witnesses: states and operands that meet the hypotheses of the statements -/

/-- EncodeOfDecode, DecodeAgreesWithTheOpcodeTable: a word of each format that decodes and selects its row. -/
theorem test_witness_decoding :
    decode 0x080000000000 = .ok .measure ∧ decode 0x030700000001 = .ok (.setsig 7 true)
      ∧ decode 0x063FFFFFFFFF = .ok (.shiftIr 63 0xFFFFFFFF)
      ∧ (Instr.row .measure ∈ rows ∧ (Instr.row .measure).selects 0x080000000000 = true)
      ∧ (Instr.row (.shiftIr 0 0) ∈ rows ∧ (Instr.row (.shiftIr 0 0)).selects 0x063FFFFFFFFF = true) := by decide

/-- IllegalWordIsRefusedFirst and the first clause of RefusalsComeInOrder, in a failed link. -/
theorem test_witness_illegal_word :
    (hosting 0xFFFFFFFFFFFF failed).host = .command 0xFFFFFFFFFFFF :: [.engineReset]
      ∧ (∀ r ∈ rows, r.selects 0xFFFFFFFFFFFF = false) ∧ decode 0xFFFFFFFFFFFF = .error .noSuchOperation
      ∧ decode 0x010000000001 = .error .reservedBitSet ∧ (5 ≤ (5 : BitVec 3).toNat ∧ 5 ≤ (7 : BitVec 3).toNat) := by decide

/-- StepRunsTheDecodedCommand. -/
theorem test_witness_decoded_command :
    (hosting 0x040000000000 opened).host = .command 0x040000000000 :: [.engineReset]
      ∧ decode 0x040000000000 = .ok .rdtdo := by decide

/-- IdleStepChangesNothing. -/
theorem test_witness_idle : State.reset.host = [] := by decide

/-- EngineResetRestoresEveryItem: a reset in a failed link, and a failed link with no reset next. -/
theorem test_witness_engine_reset :
    ({ failed with host := [.engineReset] } : State).host = .engineReset :: []
      ∧ (failed.link = .Failed ∧ ∀ rest, failed.host ≠ .engineReset :: rest)
      ∧ ((hosting 0x010000000000 failed).link = .Failed
          ∧ ∀ rest, (hosting 0x010000000000 failed).host ≠ .engineReset :: rest) :=
  ⟨rfl, ⟨rfl, fun _ h => nomatch h⟩, ⟨rfl, fun _ h => by
    have := (List.cons.inj h).1
    exact HostAct.noConfusion this⟩⟩

/-- OpenAcquiresTheLink: each clause. -/
theorem test_witness_open :
    failed.link = .Failed ∧ opened.link = .Open
      ∧ (closed.link = .Closed ∧ nextAnswer { closed with answers := [.NotFound] } = .NotFound
          ∧ nextAnswer { closed with answers := [.Busy] } = .Busy
          ∧ nextAnswer { closed with answers := [.Found] } = .Found) := by decide

/-- CloseReleasesTheLink. -/
theorem test_witness_close : exec .closeLink opened = .next (after .closeLink opened) := rfl

/-- LinkStops, in every statement that states it. -/
theorem test_witness_link_stops : failed.link = .Failed ∧ closed.link = .Closed := by decide

/-- SetsigDrivesOneSignal, RdtdoSamplesTheLine, RawAccessNeedsTheLinkOnly, ConnectReachesHome, ConnectPulsesAndCycleTime,
DisconnectReleasesEverything: an open link, away from home with the clock high and `trst` low, and the bounds of `sig`. -/
theorem test_witness_open_link :
    let s : State := { opened with tap := .TestLogicReset, out := { opened.out with clock := true, trst := false } }
    s.link = .Open ∧ home s = false ∧ 5 ≤ (5 : BitVec 3).toNat ∧ (4 : BitVec 3).toNat ≤ 4 := by decide

/-- SourceTransitionsOfTheStateMachine, SuppliedTransitionsOfTheStateMachine, HandMadeClockCycle,
FiveEdgesReachTestLogicReset: every state of the machine and both `mode` levels, with the link open, the clock low and
`trst` high. -/
theorem test_witness_transitions (x : Tap) (m : Level) :
    let s : State := { opened with tap := x, out := { opened.out with mode := m } }
    s.link = .Open ∧ s.out.clock = false ∧ s.out.trst = true ∧ s.tap = x ∧ s.out.mode = m :=
  ⟨rfl, rfl, rfl, rfl, rfl⟩

/-- ConnectBringsTheTargetTogether: a target in another state, with `trst` wired and low, and one with it not wired. -/
theorem test_witness_connect_target :
    let g : Target := { targetOf opened [] [] [] [] with
      port := { out := { opened.out with trst := false }, tap := .PauseIR } }
    let h : Target := { g with port := { out := opened.out, tap := .PauseIR }, trstWired := false }
    opened.link = .Open ∧ (g.trstWired = false → g.port.out.trst = true)
      ∧ (h.trstWired = false ∧ h.port.out.trst = true) := by decide

/-- HomeStateContract: refused away from home, and run to `OK` and to `Overflow` at home. -/
theorem test_witness_home_contract :
    (Instr.needsHome .measure = true ∧ opened.link = .Open ∧ Instr.wellFormed .measure = true ∧ home opened = false)
      ∧ ((homeState 0 0 1 0 0 [false, false]).params.wf
          ∧ reply .measure (homeState 0 0 1 0 0 [false, false]) = some { status := .OK, r0 := 1, r1 := 1 }
          ∧ reply .measure (homeState 0 0 1 0 0 [true, true]) = refusedWith .Overflow
          ∧ Status.isRefusal .OK = false ∧ Status.isRefusal .Overflow = false) := by decide

/-- ShiftStops: each clause at the bounds of its range, with the offset 3 and width 4 one bit too wide for 6. -/
theorem test_witness_shift_stops :
    opened.link = .Open ∧ ((0 : BitVec 6).toNat = 0 ∧ 32 < (33 : BitVec 6).toNat)
      ∧ (1 ≤ (1 : BitVec 6).toNat ∧ (32 : BitVec 6).toNat ≤ 32
          ∧ ¬(opened.tap = .SelectDRScan ∧ opened.out.clock = false ∧ opened.out.trst = true))
      ∧ (let s := homeState 3 3 8 6 6 []
         s.tap = .SelectDRScan ∧ s.out.clock = false ∧ s.out.trst = true ∧ s.lenI ≠ 0
          ∧ s.lenI < s.params.irOffset + (4 : BitVec 6).toNat ∧ s.lenD < s.params.drOffset + (4 : BitVec 6).toNat) := by
  decide

/-- ShiftIrShiftsTheInstructionPath, ShiftDrShiftsTheDataPath, ExecInResetShiftsUnderReset, ShiftPulseAndSampleCounts:
accepted at width 32 with nothing measured, and at width 4 on paths that are exactly full. -/
theorem test_witness_shift_runs :
    (let s := home0 []
     s.link = .Open ∧ s.tap = .SelectDRScan ∧ s.out.clock = false ∧ s.out.trst = true ∧ home s = true
      ∧ 1 ≤ (32 : BitVec 6).toNat ∧ (32 : BitVec 6).toNat ≤ 32 ∧ legalWidth 32 = true ∧ s.lenI = 0 ∧ s.lenD = 0)
    ∧ (let s := homeState 3 1 8 7 5 []
       home s = true ∧ legalWidth 4 = true ∧ s.params.irOffset + (4 : BitVec 6).toNat ≤ s.lenI
        ∧ s.params.drOffset + (4 : BitVec 6).toNat ≤ s.lenD) := by decide

/-- OperandBitsAboveTheWidthAreIgnored: [V12 b]. -/
theorem test_witness_bits_above : ∀ k < (4 : BitVec 6).toNat, (0xFFFFFFF2 : Word).getLsbD k = (0x2 : Word).getLsbD k := by
  decide

set_option maxRecDepth 10000 in
/-- InstructionShiftOnTheReferencePath and DataShiftOnTheReferencePath: paths of 3 and 2 stages that answer. -/
theorem test_witness_reference_shift :
    let s := homeState 1 0 8 0 0 [true, false]
    let g := targetOf s [] [true, false, true] [] [true, false]
    home s = true ∧ legalWidth 2 = true ∧ s.lenI = 0 ∧ s.lenD = 0 ∧ g.together s = true
      ∧ g.irCapture.length = pathLen s.lenI s.params.irOffset 2 ∧ g.drCapture.length = pathLen s.lenD s.params.drOffset 2
      ∧ g.answers (eventsOf (.shiftIr 2 0x1) s) = true ∧ g.answers (eventsOf (.shiftDr 2 0x1) s) = true := by decide

/-- MeasureProbesBothPaths, MeasureOverflowsWhenNoZeroReturns, MeasurePulseAndSampleCounts: at the least `MAX_PROBE`; away
from home; and a length of 32 bits. -/
theorem test_witness_measure :
    (let s := homeState 0 0 1 0 0 []
     s.params.wf ∧ s.link = .Open ∧ s.tap = .SelectDRScan ∧ s.out.clock = false ∧ s.out.trst = true ∧ home s = true)
    ∧ (opened.link = .Open ∧ ¬(opened.tap = .SelectDRScan ∧ opened.out.clock = false ∧ opened.out.trst = true))
    ∧ 4294967295 < 2 ^ 32 := by decide

/-- LengthsComeFromOneMeasurement: a command that is not MEASURE, and a MEASURE. -/
theorem test_witness_lengths :
    (Instr.connect ≠ .measure ∧ exec .connect opened = .next (after .connect opened))
      ∧ ((homeState 0 0 1 0 0 []).params.wf
          ∧ exec .measure (homeState 0 0 1 0 0 []) = .next (after .measure (homeState 0 0 1 0 0 []))) :=
  ⟨⟨nofun, rfl⟩, ⟨by decide, rfl⟩⟩

set_option maxRecDepth 10000 in
/-- LengthsComeFromOneMeasurement: stale lengths 5 and 7 are replaced by those of the answers 1, 0 and then 1, 1, 0, with
the second probe at the bound; by the counting of R161 they are 2 and 3. -/
theorem test_witness_lengths_of_one_measurement :
    let s := homeState 0 0 3 5 7 [true, false, true, true, false]
    let t := after .measure s
    t.lenI = 2 ∧ t.lenD = 3 ∧ probeResult (answersOf s 3) = some 2
      ∧ probeResult (answersOf (consume 2 s) 3) = some 3 := by decide

set_option maxRecDepth 10000 in
/-- MeasureFindsTheReferenceLengths: a path of `MAX_PROBE` stages and one of 1 stage that answer. -/
theorem test_witness_reference_measure :
    let s := homeState 0 0 2 0 0 [true, false, false]
    let g := targetOf s [] [false, true] [] [true]
    s.params.wf ∧ home s = true ∧ g.together s = true ∧ 1 ≤ g.irCapture.length ∧ g.irCapture.length ≤ s.params.maxProbe
      ∧ 1 ≤ g.drCapture.length ∧ g.drCapture.length ≤ s.params.maxProbe
      ∧ g.answers (eventsOf .measure s) = true := by decide

/-- StuckLineMeasurements, low and high, with `MAX_PROBE` 3. -/
theorem test_witness_stuck_line :
    (∀ k < 2 * 3, answerAt (homeState 0 0 3 0 0 (List.replicate 6 false)) k = false)
      ∧ (∀ k < 2 * 3, answerAt (homeState 0 0 3 0 0 (List.replicate 6 true)) k = true)
      ∧ home (homeState 0 0 3 0 0 (List.replicate 6 true)) = true
      ∧ (homeState 0 0 3 0 0 (List.replicate 6 true)).params.wf := by decide

set_option maxRecDepth 10000 in
/-- MeasuredLengthBoundsLaterShifts: MEASURE, then a SETSIG of reset-request, then shifts one bit too wide. -/
theorem test_witness_measured_bound :
    let s := homeState 0 0 2 0 0 [true, false, false]
    let t := after .measure s
    let u := after (.setsig 3 false) t
    s.params.wf ∧ t.response = some { status := .OK, r0 := 2, r1 := 1 } ∧ (∀ i ∈ [Instr.setsig 3 false], i ≠ .measure)
      ∧ home u = true ∧ legalWidth 3 = true ∧ t.lenD < u.params.drOffset + (3 : BitVec 6).toNat
      ∧ t.lenI < u.params.irOffset + (3 : BitVec 6).toNat := by decide

/-- RefusalsComeInOrder: the later clauses. -/
theorem test_witness_refusals :
    (Instr.openLink ≠ .closeLink ∧ failed.link = .Failed)
      ∧ (Instr.measure ≠ .openLink ∧ Instr.measure ≠ .closeLink ∧ closed.link = .Closed)
      ∧ (opened.link = .Open ∧ Instr.wellFormed (.shiftIr 33 0) = false ∧ Instr.wellFormed (.setsig 7 true) = false)
      ∧ (Instr.wellFormed (.shiftIr 4 0) = true ∧ Instr.needsHome (.shiftIr 4 0) = true ∧ home opened = false)
      ∧ (home (homeState 3 0 8 6 0 []) = true
          ∧ Instr.shiftOf (homeState 3 0 8 6 0 []) (.execInReset 4 0) = some (4, 3, 6) ∧ 6 ≠ 0 ∧ 6 < 3 + 4) := by decide

/-- RefusedCommandsChangeNothing: a refused command and a fault. -/
theorem test_witness_refused :
    (reply .measure opened = refusedWith .NotHome ∧ Status.isRefusal .NotHome = true)
      ∧ reply .openLink { closed with answers := [.Busy] } = refusedWith .AdapterBusy ∧ Status.AdapterBusy ≠ .OK := by
  decide

/-- ModeSettlesBeforeEveryEdge. -/
theorem test_witness_edges : Instr.needsHome (.shiftDr 1 0) = true := rfl

/-- ClosedLinkIsSilent. -/
theorem test_witness_silent : closed.link ≠ .Open ∧ failed.link ≠ .Open := by decide

/-- ParametersNeverChange and EveryStepKeepsTheInvariant: a state with `trst` low that meets the invariant, and its step. -/
theorem test_witness_invariant :
    let s := hosting 0x030400000001 { opened with out := { opened.out with trst := false } }
    s.inv ∧ step s = .next (afterStep s) :=
  ⟨⟨by decide, by decide, by decide, by decide, by decide⟩, rfl⟩

end Sys2Proof.Tests
end

section
/-! SUPPORT. What any command can do, said once: beside the link, the lengths, the response and OPEN's answers, which no
pin operation touches, a command is a sequence of pin operations (spec 00_scope.md R9, 10_state.md R20 to R23). -/

namespace Sys2Proof.Machine

/-- `t` seen at the pins only: what a command writes beside a sequence of pin operations is put back to what it was in
`s`. -/
def State.atPins (s t : State) : State :=
  { t with
    link := s.link, lenI := s.lenI, lenD := s.lenD, response := s.response, answers := s.answers, asked := s.asked }

/-- At the pins, `t` is `s` after a sequence of pin operations. -/
def CommandEffect (s t : State) : Prop := Effect s (s.atPins t)

section AtPins
variable (s u : State)

@[simp] theorem State.atPins_self : s.atPins s = s := rfl
@[simp] theorem State.atPins_respond (e : Status) (a b : Word) : s.atPins (respond e a b u) = s.atPins u := rfl
@[simp] theorem State.atPins_raise (e : Status) : s.atPins (raise e u) = s.atPins u := rfl
@[simp] theorem State.atPins_failLink (e : Status) : s.atPins (failLink e u) = s.atPins u := rfl
@[simp] theorem State.atPins_consumeAnswer : s.atPins (consumeAnswer s) = s := rfl

@[simp] theorem State.atPins_recordLengths (r : Option Nat × Option Nat) :
    s.atPins (recordLengths r u) = s.atPins u := by
  rcases r with ⟨_ | m, _ | n⟩ <;> rfl

/-- At the pins, a sequence of pin operations is all there is to see. -/
theorem Effect.atPins {s u : State} (h : Effect s u) : s.atPins u = u := by
  obtain ⟨o, x, es, n, rfl, -, -⟩ := h
  rfl

end AtPins

/-! ### How a command ends -/

section Endings
variable {s u : State}

theorem raise_commandEffect (e : Status) (s : State) : CommandEffect s (raise e s) := by
  simpa [CommandEffect] using Effect.refl s

theorem Effect.respond (h : Effect s u) (e : Status) (a b : Word) : CommandEffect s (respond e a b u) := by
  simpa [CommandEffect, h.atPins] using h

theorem Effect.recordLengths (h : Effect s u) (r : Option Nat × Option Nat) :
    CommandEffect s (recordLengths r u) := by
  simpa [CommandEffect, h.atPins] using h

/-- The idle pattern of a successful OPEN is a sequence of pin writes that leaves the tracked machine alone (R91). -/
theorem acquire_commandEffect (s : State) : CommandEffect s (acquire (consumeAnswer s)) :=
  ⟨Latches.idle, s.tap, idleEvents, 0, by simp [State.atPins, acquire, respond, consumeAnswer, moved], rfl,
    by simp [sampledLevels, idleEvents, answersOf]⟩

theorem openWith_commandEffect (a : OpenAnswer) (s : State) : CommandEffect s (openWith a (consumeAnswer s)) := by
  cases a with
  | Found => exact acquire_commandEffect s
  | NotFound => simpa [CommandEffect, openWith] using Effect.refl s
  | Busy => simpa [CommandEffect, openWith] using Effect.refl s

end Endings

/-! ### The commands -/

/-- Every command ends, and at the pins it is a sequence of pin operations. -/
theorem exec_commandEffect (i : Instr) (s : State) : ∃ t, exec i s = .next t ∧ CommandEffect s t := by
  cases i <;> refine ⟨_, rfl, ?_⟩
  case openLink =>
    split
    · exact raise_commandEffect _ s
    · rw [askEnvironment_eq]
      exact openWith_commandEffect _ s
  case closeLink => exact Effect.refl s
  case setsig sig level =>
    split
    · exact raise_commandEffect _ s
    · split
      · exact raise_commandEffect _ s
      · exact (setSignal_effect ..).respond ..
  case rdtdo =>
    split
    · exact raise_commandEffect _ s
    · exact ((wait_effect ..).trans (readDataOut_effect _)).respond ..
  case connect =>
    split
    · exact raise_commandEffect _ s
    · exact (connectSequence_effect s).respond ..
  case shiftIr width value =>
    split
    · exact raise_commandEffect _ s
    · exact (instructionShift_effect ..).respond ..
  case shiftDr width value =>
    split
    · exact raise_commandEffect _ s
    · exact (dataShift_effect ..).respond ..
  case measure =>
    split
    · exact raise_commandEffect _ s
    · exact (probeBoth_effect s).recordLengths _
  case execInReset width value =>
    split
    · exact raise_commandEffect _ s
    · have asserted := (setSignal_effect .resetRequest false s).trans (wait_effect .reset _)
      exact ((asserted.trans (instructionShift_effect ..)).trans (setSignal_effect ..)).respond ..

/-- A command word ends as a command does, an illegal one with nothing done at the pins (R77). -/
theorem runCommand_commandEffect (w : Command) (s : State) : ∃ t, runCommand w s = .next t ∧ CommandEffect s t := by
  unfold runCommand
  split
  · exact exec_commandEffect _ s
  · exact ⟨_, rfl, raise_commandEffect _ s⟩
  · exact ⟨_, rfl, raise_commandEffect _ s⟩

/-- What a step can do: nothing (R188), an engine reset (R200), or one command word (R70). -/
theorem step_cases {s t : State} (h : step s = .next t) :
    (s.host = [] ∧ t = s)
      ∨ (∃ rest, s.host = .engineReset :: rest ∧ t = engineReset (takeAct rest s))
      ∨ ∃ w rest, s.host = .command w :: rest ∧ runCommand w (takeAct rest s) = .next t
          ∧ CommandEffect (takeAct rest s) t := by
  unfold step runNextAct at h
  split at h
  · next hhost =>
    cases h
    exact .inl ⟨hhost, rfl⟩
  · next w rest hhost =>
    obtain ⟨u, hrun, heffect⟩ := runCommand_commandEffect w (takeAct rest s)
    obtain rfl : u = t := by simpa [hrun] using h
    exact .inr (.inr ⟨w, rest, hhost, hrun, heffect⟩)
  · next rest hhost =>
    cases h
    exact .inr (.inl ⟨rest, hhost, rfl⟩)

/-! ### What follows from it -/

section Consequences
variable {s t : State} (h : CommandEffect s t)
include h

theorem CommandEffect.params : t.params = s.params :=
  (Effect.params h : (s.atPins t).params = s.params)

/-- The events of a command account for the pins and the tracked machine, and its samples are the environment's next
answers, so many of which are taken. -/
theorem CommandEffect.events : ∃ events n,
    t.trace = s.trace ++ events
      ∧ events.foldl Port.see s.port = t.port
      ∧ sampledLevels events = answersOf s n
      ∧ t.samples = s.samples.drop n
      ∧ t.drawn = s.drawn + (n - s.samples.length) := by
  obtain ⟨o, x, es, n, ht, hport, hsampled⟩ := h
  have hout : t.out = o := congrArg State.out ht
  have htap : t.tap = x := congrArg State.tap ht
  refine ⟨es, n, congrArg State.trace ht, ?_, hsampled, congrArg State.samples ht, congrArg State.drawn ht⟩
  rw [hport, State.port, hout, htap]

end Consequences

end Sys2Proof.Machine
end

section
/-! PROOFS. The statements of 00_scope.md: the samples (R9) and the parameters (R5). -/

namespace Sys2Proof.Machine

/-- Settles O43: at the pins a command is a sequence of pin operations, and each of those samples the next answers. -/
theorem samplesAreTheNextAnswers : Obligations.SamplesAreTheNextAnswers := by
  intro i s
  obtain ⟨t, hexec, heffect⟩ := exec_commandEffect i s
  obtain ⟨events, n, htrace, -, hsampled, hsamples, hdrawn⟩ := heffect.events
  have hcount : (sampledLevels events).length = n := by rw [hsampled, answersOf_length]
  refine ⟨t, events, hexec, htrace, ?_⟩
  rw [hcount]
  exact ⟨hsampled, hsamples, hdrawn⟩

/-- Settles O48: a step is nothing, an engine reset or one command word, and none of them writes the parameters. -/
theorem parametersNeverChange : Obligations.ParametersNeverChange := by
  intro s t hstep
  obtain ⟨-, rfl⟩ | ⟨rest, -, rfl⟩ | ⟨w, rest, -, -, heffect⟩ := step_cases hstep
  · rfl
  · rfl
  · exact heffect.params

end Sys2Proof.Machine
end

section
/-! SUPPORT. What commands do to the link and to the two lengths: no command but OPEN and CLOSE gets past a link that is
not open, and no command but MEASURE writes a length (spec 40_link_ops.md R90, R91, 43_measure.md R160 to R164). -/

namespace Sys2Proof.Machine

/-! ### A link that is not open -/

/-- A link that is not open is a refusal (R90). -/
theorem linkRefusal_of_not_open {s : State} (h : s.link ≠ .Open) : ∃ e, linkRefusal s = some e := by
  cases hlink : s.link with
  | Closed => exact ⟨_, linkRefusal_closed hlink⟩
  | Open => exact absurd hlink h
  | Failed => exact ⟨_, linkRefusal_failed hlink⟩

/-- The link's refusal comes before everything else in every command but OPEN and CLOSE (R176). -/
theorem exec_of_linkRefusal {i : Instr} {s : State} {e : Status} (h : linkRefusal s = some e)
    (hopen : i ≠ .openLink) (hclose : i ≠ .closeLink) : exec i s = .next (raise e s) := by
  cases i with
  | openLink => exact absurd rfl hopen
  | closeLink => exact absurd rfl hclose
  | setsig sig level => simp only [exec, execSetsig, h]
  | rdtdo => simp only [exec, execRdtdo, h]
  | connect => simp only [exec, execConnect, h]
  | shiftIr width value => simp only [exec, execShiftIr, shiftRefusal_link h]
  | shiftDr width value => simp only [exec, execShiftDr, shiftRefusal_link h]
  | measure => simp only [exec, execMeasure, measureRefusal_link h]
  | execInReset width value => simp only [exec, execExecInReset, shiftRefusal_link h]

/-- With the link not open, OPEN acquires it from Closed or moves nothing at the pins (R91). -/
theorem execOpenLink_of_not_open {s : State} (h : s.link ≠ .Open) : ∃ t, execOpenLink s = .next t
    ∧ ((t.trace = s.trace ∧ t.out = s.out ∧ t.tap = s.tap ∧ t.samples = s.samples ∧ t.drawn = s.drawn)
      ∨ (s.link = .Closed ∧ t.link = .Open)) := by
  refine ⟨_, rfl, ?_⟩
  cases hlink : s.link with
  | Open => exact absurd hlink h
  | Failed =>
    simp only [openRefusal, hlink]
    exact .inl ⟨rfl, rfl, rfl, rfl, rfl⟩
  | Closed =>
    simp only [openRefusal, hlink, askEnvironment_eq]
    cases nextAnswer s with
    | Found => exact .inr ⟨trivial, rfl⟩
    | NotFound => exact .inl ⟨rfl, rfl, rfl, rfl, rfl⟩
    | Busy => exact .inl ⟨rfl, rfl, rfl, rfl, rfl⟩

/-! ### The lengths -/

/-- OPEN's answer, whatever it is, writes neither length (R91). -/
theorem openWith_lengths (a : OpenAnswer) (s : State) :
    (openWith a s).lenI = s.lenI ∧ (openWith a s).lenD = s.lenD := by
  cases a <;> exact ⟨rfl, rfl⟩

/-- A sequence of pin operations with a response at its end writes neither length. -/
theorem lengths_respond_of_effect {s u : State} (h : Effect s u) (e : Status) (a b : Word) :
    (respond e a b u).lenI = s.lenI ∧ (respond e a b u).lenD = s.lenD := ⟨h.lenI, h.lenD⟩

/-- No command but MEASURE writes a length (R162). -/
theorem exec_lengths {i : Instr} {s t : State} (hi : i ≠ .measure) (h : exec i s = .next t) :
    t.lenI = s.lenI ∧ t.lenD = s.lenD := by
  cases i <;> cases h
  case openLink =>
    split
    · exact ⟨rfl, rfl⟩
    · rw [askEnvironment_eq]
      exact openWith_lengths _ (consumeAnswer s)
  case closeLink => exact ⟨rfl, rfl⟩
  case setsig sig level =>
    split
    · exact ⟨rfl, rfl⟩
    · split <;> exact ⟨rfl, rfl⟩
  case rdtdo =>
    split
    · exact ⟨rfl, rfl⟩
    · exact lengths_respond_of_effect (probeSample_effect s) ..
  case connect =>
    split
    · exact ⟨rfl, rfl⟩
    · exact lengths_respond_of_effect (connectSequence_effect s) ..
  case shiftIr width value =>
    split
    · exact ⟨rfl, rfl⟩
    · exact lengths_respond_of_effect (instructionShift_effect ..) ..
  case shiftDr width value =>
    split
    · exact ⟨rfl, rfl⟩
    · exact lengths_respond_of_effect (dataShift_effect ..) ..
  case measure => exact absurd rfl hi
  case execInReset width value =>
    split
    · exact ⟨rfl, rfl⟩
    · have asserted := (setSignal_effect .resetRequest false s).trans (wait_effect .reset _)
      exact lengths_respond_of_effect ((asserted.trans (instructionShift_effect ..)).trans (setSignal_effect ..)) ..

/-- The two lengths are at most `MAX_PROBE` and from one measurement (R28, R164). -/
def State.lengthsFit (s : State) : Prop :=
  s.lenI ≤ s.params.maxProbe ∧ s.lenD ≤ s.params.maxProbe ∧ (s.lenI = 0 ↔ s.lenD = 0)

theorem State.inv_iff (s : State) :
    s.inv ↔ s.params.wf ∧ (s.out.trst = false → s.tap = .TestLogicReset) ∧ s.lengthsFit := Iff.rfl

theorem State.lengthsFit_congr {s t : State} (hI : t.lenI = s.lenI) (hD : t.lenD = s.lenD) (hp : t.params = s.params) :
    t.lengthsFit ↔ s.lengthsFit := by
  simp only [State.lengthsFit, hI, hD, hp]

/-- An overflow clears both lengths (R163, R164). -/
theorem overflowed_lengthsFit (s : State) : (overflowed s).lengthsFit :=
  ⟨Nat.zero_le _, Nat.zero_le _, Iff.rfl⟩

/-- Two results of a probe that each lie between 1 and `MAX_PROBE`, where there is one, are recorded as lengths that fit
(R162 to R164). -/
theorem recordLengths_lengthsFit {a b : Option Nat} {s : State}
    (ha : ∀ m, a = some m → 1 ≤ m ∧ m ≤ s.params.maxProbe) (hb : ∀ n, b = some n → 1 ≤ n ∧ n ≤ s.params.maxProbe) :
    (recordLengths (a, b) s).lengthsFit := by
  rcases a with _ | m <;> rcases b with _ | n
  case some.some =>
    obtain ⟨hm, hmMax⟩ := ha m rfl
    obtain ⟨hn, hnMax⟩ := hb n rfl
    exact ⟨hmMax, hnMax, (iff_of_false (by omega) (by omega) : m = 0 ↔ n = 0)⟩
  all_goals exact overflowed_lengthsFit s

/-- MEASURE, refused or not, leaves lengths that fit: a probe that finds a 0 finds it among `MAX_PROBE` answers
(R162). -/
theorem execMeasure_lengthsFit {s t : State} (hp : s.params.wf) (hs : s.lengthsFit) (h : execMeasure s = .next t) :
    t.lengthsFit := by
  cases h
  split
  · exact hs
  · next hnone =>
    have range : ∀ (u : State) (n : Nat), probeResult (answersOf u s.params.maxProbe) = some n →
        1 ≤ n ∧ n ≤ s.params.maxProbe := by
      intro u n hn
      simpa using probeResult_range hn
    rw [probeBoth_eq s hp (measureRefusal_eq_none hnone)]
    exact recordLengths_lengthsFit (range _) (range _)

theorem exec_keeps_lengthsFit {i : Instr} {s t : State} (hp : s.params.wf) (hs : s.lengthsFit)
    (h : exec i s = .next t) : t.lengthsFit := by
  by_cases hi : i = .measure
  · subst hi
    exact execMeasure_lengthsFit hp hs h
  · obtain ⟨u, hu, heffect⟩ := exec_commandEffect i s
    obtain rfl : u = t := by simpa [hu] using h
    obtain ⟨hI, hD⟩ := exec_lengths hi h
    exact (State.lengthsFit_congr hI hD heffect.params).mpr hs

/-! ### The invariant -/

/-- A command keeps `trst` low in TestLogicReset (R27). -/
theorem CommandEffect.trst_low {s t : State} (h : CommandEffect s t)
    (hs : s.out.trst = false → s.tap = .TestLogicReset) : t.out.trst = false → t.tap = .TestLogicReset :=
  Effect.trst_low (t := s.atPins t) h hs

theorem runCommand_keeps_lengthsFit {w : Command} {s t : State} (hp : s.params.wf) (hs : s.lengthsFit)
    (h : runCommand w s = .next t) : t.lengthsFit := by
  unfold runCommand at h
  split at h
  · exact exec_keeps_lengthsFit hp hs h
  · cases h
    exact hs
  · cases h
    exact hs

end Sys2Proof.Machine
end

section
/-! SUPPORT. The outputs and the host's list: every operation, and so every command, does the same under any of them
(spec 10_state.md R31, R34; log 1, 4, 5). -/

namespace Sys2Proof.Machine

/-- `s` with the events `tr` before its trace, and another response and list of the host's acts. -/
def State.withOutputs (tr : List Event) (r : Option Response) (h : List HostAct) (s : State) : State :=
  { s with trace := tr ++ s.trace, response := r, host := h }

section WithOutputs
variable (tr : List Event) (r : Option Response) (h : List HostAct) (s : State)

/-! ### What is looked at -/

@[simp] theorem withOutputs_lenI : (s.withOutputs tr r h).lenI = s.lenI := rfl
@[simp] theorem withOutputs_lenD : (s.withOutputs tr r h).lenD = s.lenD := rfl
@[simp] theorem withOutputs_params : (s.withOutputs tr r h).params = s.params := rfl
@[simp] theorem linkRefusal_withOutputs : linkRefusal (s.withOutputs tr r h) = linkRefusal s := rfl
@[simp] theorem openRefusal_withOutputs : openRefusal (s.withOutputs tr r h) = openRefusal s := rfl
@[simp] theorem shiftRefusal_withOutputs (len P W : Nat) :
    shiftRefusal len P W (s.withOutputs tr r h) = shiftRefusal len P W s := rfl
@[simp] theorem measureRefusal_withOutputs : measureRefusal (s.withOutputs tr r h) = measureRefusal s := rfl
@[simp] theorem nextAnswer_withOutputs : nextAnswer (s.withOutputs tr r h) = nextAnswer s := rfl

/-! ### Operations -/

theorem tapAfter_withOutputs (x : Signal) (v : Level) : tapAfter x v (s.withOutputs tr r h) = tapAfter x v s := by
  cases x <;> rfl

@[simp] theorem setSignal_withOutputs (x : Signal) (v : Level) :
    setSignal x v (s.withOutputs tr r h) = (setSignal x v s).withOutputs tr r h := by
  rw [setSignal, tapAfter_withOutputs]
  simp [setSignal, State.withOutputs]

@[simp] theorem wait_withOutputs (t : Duration) :
    wait t (s.withOutputs tr r h) = (wait t s).withOutputs tr r h := by
  simp [wait, State.withOutputs]

@[simp] theorem readDataOut_withOutputs :
    readDataOut (s.withOutputs tr r h) = ((readDataOut s).1, (readDataOut s).2.withOutputs tr r h) := by
  simp [readDataOut_eq, moved, consume, State.withOutputs, answerAt]

@[simp] theorem pulse_withOutputs : pulse (s.withOutputs tr r h) = (pulse s).withOutputs tr r h := by
  simp [pulse]

@[simp] theorem navCycle_withOutputs (tms : Level) :
    navCycle tms (s.withOutputs tr r h) = (navCycle tms s).withOutputs tr r h := by
  simp [navCycle]

@[simp] theorem shiftCycle_withOutputs (tms tdi sample : Level) :
    shiftCycle tms tdi sample (s.withOutputs tr r h) =
      ((shiftCycle tms tdi sample s).1, (shiftCycle tms tdi sample s).2.withOutputs tr r h) := by
  cases sample <;> simp [shiftCycle]

@[simp] theorem probeSample_withOutputs :
    probeSample (s.withOutputs tr r h) = ((probeSample s).1, (probeSample s).2.withOutputs tr r h) := by
  simp [probeSample]

@[simp] theorem toShiftIR_withOutputs : toShiftIR (s.withOutputs tr r h) = (toShiftIR s).withOutputs tr r h := by
  simp [toShiftIR]

@[simp] theorem toShiftDR_withOutputs : toShiftDR (s.withOutputs tr r h) = (toShiftDR s).withOutputs tr r h := by
  simp [toShiftDR]

@[simp] theorem exitToHome_withOutputs : exitToHome (s.withOutputs tr r h) = (exitToHome s).withOutputs tr r h := by
  simp [exitToHome]

/-- A change of view that every pass of a loop carries along is carried along by the loop. -/
theorem forLoop_commute {α : Type} (view : α → α) (body : Nat → α → α)
    (hbody : ∀ i a, body i (view a) = view (body i a)) :
    ∀ (n first : Nat) (a : α), forLoop body n first (view a) = view (forLoop body n first a) := by
  intro n
  induction n with
  | zero => exact fun _ _ => rfl
  | succ n ih =>
    intro first a
    rw [forLoop, hbody, ih, forLoop]

/-! ### The bodies of the commands -/

@[simp] theorem connectSequence_withOutputs :
    connectSequence (s.withOutputs tr r h) = (connectSequence s).withOutputs tr r h := by
  simp [connectSequence_eq, moved, consume, State.withOutputs]

@[simp] theorem scanCycle_withOutputs (v : Word) (W lead L i : Nat) (a : Word) :
    scanCycle v W lead L i (a, s.withOutputs tr r h) =
      ((scanCycle v W lead L i (a, s)).1, (scanCycle v W lead L i (a, s)).2.withOutputs tr r h) := by
  simp [scanCycle]

@[simp] theorem scanShift_withOutputs (v : Word) (W P L : Nat) :
    scanShift v W P L (s.withOutputs tr r h) =
      ((scanShift v W P L s).1, (scanShift v W P L s).2.withOutputs tr r h) :=
  forLoop_commute (Prod.map id (State.withOutputs tr r h)) (scanCycle v W (L - P - W) L)
    (fun i a => scanCycle_withOutputs tr r h a.2 v W (L - P - W) L i a.1) L 0 (0, s)

@[simp] theorem instructionShift_withOutputs (W : Nat) (v : Word) :
    instructionShift W v (s.withOutputs tr r h) =
      ((instructionShift W v s).1, (instructionShift W v s).2.withOutputs tr r h) := by
  simp [instructionShift]

@[simp] theorem dataShift_withOutputs (W : Nat) (v : Word) :
    dataShift W v (s.withOutputs tr r h) = ((dataShift W v s).1, (dataShift W v s).2.withOutputs tr r h) := by
  simp [dataShift]

@[simp] theorem probeRun_withOutputs (n : Nat) :
    probeRun n (s.withOutputs tr r h) = (probeRun n s).withOutputs tr r h :=
  forLoop_commute (State.withOutputs tr r h) _ (fun _ t => by simp) n 1 s

@[simp] theorem probeZero_withOutputs : probeZero (s.withOutputs tr r h) = (probeZero s).withOutputs tr r h := by
  simp [probeZero]

theorem probeLoop_withOutputs (left : Nat) : ∀ (n : Nat) (s : State),
    probeLoop left n (s.withOutputs tr r h) = ((probeLoop left n s).1, (probeLoop left n s).2.withOutputs tr r h) := by
  induction left with
  | zero => exact fun n s => by simp [probeLoop]
  | succ left ih =>
    intro n s
    simp only [probeLoop, probeSample_withOutputs]
    split
    · rfl
    · rw [navCycle_withOutputs, ih]

theorem probePath_withOutputs (toShift : State → State)
    (hwalk : ∀ t, toShift (t.withOutputs tr r h) = (toShift t).withOutputs tr r h) :
    probePath toShift (s.withOutputs tr r h) =
      ((probePath toShift s).1, (probePath toShift s).2.withOutputs tr r h) := by
  simp [probePath, hwalk, probeLoop_withOutputs]

@[simp] theorem probeBoth_withOutputs :
    probeBoth (s.withOutputs tr r h) = ((probeBoth s).1, (probeBoth s).2.withOutputs tr r h) := by
  simp [probeBoth, probePath_withOutputs]

end WithOutputs

/-! ### The commands: each ends with a response of its own -/

/-- `t` with the events `tr` before its trace and another list of the host's acts; the response stays its own. -/
def State.behind (tr : List Event) (h : List HostAct) (t : State) : State :=
  { t with trace := tr ++ t.trace, host := h }

section Endings
variable (tr : List Event) (r : Option Response) (h : List HostAct) (s : State)

@[simp] theorem respond_withOutputs (e : Status) (a b : Word) :
    respond e a b (s.withOutputs tr r h) = (respond e a b s).behind tr h := rfl

@[simp] theorem raise_withOutputs (e : Status) : raise e (s.withOutputs tr r h) = (raise e s).behind tr h := rfl

@[simp] theorem recordLengths_withOutputs (p : Option Nat × Option Nat) :
    recordLengths p (s.withOutputs tr r h) = (recordLengths p s).behind tr h := by
  rcases p with ⟨_ | m, _ | n⟩ <;> rfl

theorem consumeAnswer_withOutputs :
    consumeAnswer (s.withOutputs tr r h) = (consumeAnswer s).withOutputs tr r h := rfl

theorem openWith_withOutputs (a : OpenAnswer) :
    openWith a (s.withOutputs tr r h) = (openWith a s).behind tr h := by
  cases a with
  | Found => simp [openWith, acquire, respond, State.withOutputs, State.behind]
  | NotFound => rfl
  | Busy => rfl

end Endings

/-- A command does the same under any outputs and any list of the host's acts. -/
theorem exec_withOutputs (i : Instr) (s : State) : ∃ u, exec i s = .next u ∧
    ∀ tr r h, exec i (s.withOutputs tr r h) = .next (u.behind tr h) := by
  cases i <;> refine ⟨_, rfl, fun tr r h => congrArg Host.Outcome.next ?_⟩
  case openLink =>
    rw [openRefusal_withOutputs]
    split
    · rfl
    · simp only [askEnvironment_eq, nextAnswer_withOutputs, consumeAnswer_withOutputs, openWith_withOutputs]
  case closeLink => rfl
  case setsig sig level =>
    rw [linkRefusal_withOutputs]
    split
    · rfl
    · split
      · rfl
      · rw [setSignal_withOutputs, respond_withOutputs]
  case rdtdo =>
    rw [linkRefusal_withOutputs]
    split
    · rfl
    · simp only [wait_withOutputs, readDataOut_withOutputs, respond_withOutputs]
  case connect =>
    rw [linkRefusal_withOutputs]
    split
    · rfl
    · rw [connectSequence_withOutputs, respond_withOutputs]
  case shiftIr width value =>
    rw [withOutputs_lenI, withOutputs_params, shiftRefusal_withOutputs]
    split
    · rfl
    · simp only [instructionShift_withOutputs, respond_withOutputs]
  case shiftDr width value =>
    rw [withOutputs_lenD, withOutputs_params, shiftRefusal_withOutputs]
    split
    · rfl
    · simp only [dataShift_withOutputs, respond_withOutputs]
  case measure =>
    rw [measureRefusal_withOutputs]
    split
    · rfl
    · rw [probeBoth_withOutputs, recordLengths_withOutputs]
  case execInReset width value =>
    rw [withOutputs_lenI, withOutputs_params, shiftRefusal_withOutputs]
    split
    · rfl
    · simp only [setSignal_withOutputs, wait_withOutputs, instructionShift_withOutputs, respond_withOutputs]

end Sys2Proof.Machine
end

section
/-! PROOFS. The statements of 10_state.md: the pins and the trace (R21 to R26), the invariant (R27, R28), the outputs
(R31, R34), the step (R30) and the reset values (R20, R22). -/

namespace Sys2Proof.Machine

/-- Settles O42: at the pins a command is a sequence of pin operations, and the events of each account for it. -/
theorem traceAccountsForPinsAndTap : Obligations.TraceAccountsForPinsAndTap := by
  intro i s
  obtain ⟨t, hexec, heffect⟩ := exec_commandEffect i s
  obtain ⟨events, -, htrace, hport, -⟩ := heffect.events
  exact ⟨t, events, hexec, htrace, hport⟩

/-- Settles O50: a step is nothing, an engine reset or one command word; a command keeps `trst` low in TestLogicReset as
its events do at a port, and MEASURE, the only one that writes the lengths, writes what its probes can find. -/
theorem everyStepKeepsTheInvariant : Obligations.EveryStepKeepsTheInvariant := by
  intro s t hinv hstep
  obtain ⟨hwf, htrst, hlengths⟩ := s.inv_iff.mp hinv
  obtain ⟨-, rfl⟩ | ⟨rest, -, rfl⟩ | ⟨w, rest, -, hrun, heffect⟩ := step_cases hstep
  · exact hinv
  · exact ⟨hwf, fun _ => rfl, Nat.zero_le _, Nat.zero_le _, Iff.rfl⟩
  · have hparams : t.params = s.params := heffect.params
    have hfit : t.lengthsFit := runCommand_keeps_lengthsFit (s := takeAct rest s) hwf hlengths hrun
    exact t.inv_iff.mpr ⟨hparams ▸ hwf, heffect.trst_low htrst, hfit⟩

/-- Settles O46: the link's refusal stops every command but OPEN and CLOSE; CLOSE writes only the link, and OPEN from
Closed moves nothing unless the environment answers Found. -/
theorem closedLinkIsSilent : Obligations.ClosedLinkIsSilent := by
  intro i s hlink
  obtain ⟨e, he⟩ := linkRefusal_of_not_open hlink
  by_cases hopen : i = .openLink
  · subst hopen
    obtain ⟨t, hexec, hquiet | ⟨hclosed, hacquired⟩⟩ := execOpenLink_of_not_open hlink
    · exact ⟨t, hexec, .inl hquiet⟩
    · exact ⟨t, hexec, .inr ⟨rfl, hclosed, hacquired⟩⟩
  · by_cases hclose : i = .closeLink
    · subst hclose
      exact ⟨_, rfl, .inl ⟨rfl, rfl, rfl, rfl, rfl⟩⟩
    · exact ⟨_, exec_of_linkRefusal he hopen hclose, .inl ⟨rfl, rfl, rfl, rfl, rfl⟩⟩

/-- Settles O47: what the command does from `s` with an empty trace is what it does under any outputs. -/
theorem outputsAreNeverReadBack : Obligations.OutputsAreNeverReadBack := by
  intro i s
  obtain ⟨u, -, hu⟩ := exec_withOutputs i { s with trace := [] }
  refine ⟨u, u.trace, fun tr r h => ?_⟩
  simpa [State.withOutputs, State.behind] using hu tr r h

/-- Settles O9: the fetch takes the act off the list, decodes it and runs it. -/
theorem stepRunsTheDecodedCommand : Obligations.StepRunsTheDecodedCommand := by
  intro s w rest i hhost hdecode
  simp only [step, runNextAct, hhost, runCommand, hdecode, takeAct]

/-- Settles O11: the latches are reset to the idle pattern, the rest to the reset column (R20, R22). -/
theorem resetLeavesTheStatedValues : Obligations.ResetLeavesTheStatedValues :=
  ⟨rfl, rfl, rfl, rfl, rfl, rfl, rfl, rfl, rfl⟩

/-- Settles O49: `MAX_PROBE` is a successor, `tap` is TestLogicReset and both lengths are 0. -/
theorem invariantHoldsAtReset : Obligations.InvariantHoldsAtReset :=
  ⟨Nat.le_add_left 1 _, fun _ => rfl, Nat.zero_le _, Nat.zero_le _, Iff.rfl⟩

end Sys2Proof.Machine
end

section
/-! SUPPORT. The fields of a command word and the words of the three formats, each way: what the fields of a written word
are, and the word its fields write; from them the round trip and the match and mask table (spec 30_encoding.md R71 to
R75). -/

namespace Sys2Proof

/-! ### Fields of any word -/

section Word
variable (w : Command)

/-- Two fields side by side are one. -/
theorem field_append_field {hi lo m n : Nat} (h : hi = lo + n) : field hi m w ++ field lo n w = field lo (m + n) w :=
  BitVec.extractLsb'_append_extractLsb'_eq_extractLsb' h

theorem field_whole : field 0 48 w = w := BitVec.extractLsb'_eq_self

theorem field_and (m : Command) (lo n : Nat) : field lo n (w &&& m) = field lo n w &&& field lo n m :=
  BitVec.extractLsb'_and

theorem field_low_bit : field 0 1 w = BitVec.ofBool (levelField w) := by
  apply BitVec.eq_of_getLsbD_eq
  simp [field, levelField]

/-- A word is its top bits, its operation and its 40 operand bits. -/
theorem fields_eq_word : (field 44 4 w ++ opField w) ++ field 0 40 w = w :=
  calc (field 44 4 w ++ opField w) ++ field 0 40 w
      = field 40 8 w ++ field 0 40 w := congrArg (· ++ field 0 40 w) (field_append_field w rfl)
    _ = field 0 48 w := field_append_field w rfl
    _ = w := field_whole w

/-- The operand bits of format L. -/
theorem fieldsL_eq_body :
    (field 35 5 w ++ sigField w) ++ (field 1 31 w ++ BitVec.ofBool (levelField w)) = field 0 40 w := by
  have hsig : field 35 5 w ++ sigField w = field 32 8 w := field_append_field w rfl
  have hlevel : field 1 31 w ++ field 0 1 w = field 0 32 w := field_append_field w rfl
  rw [← field_low_bit, hsig, hlevel]
  exact field_append_field w rfl

/-- The operand bits of format S. -/
theorem fieldsS_eq_body : (field 38 2 w ++ widthField w) ++ valueField w = field 0 40 w := by
  have hwidth : field 38 2 w ++ widthField w = field 32 8 w := field_append_field w rfl
  rw [hwidth]
  exact field_append_field w rfl

end Word

/-! ### A word with its reserved bits clear is the word its fields write (R71) -/

section Rebuild
variable {w : Command}

/-- Format N. -/
theorem wordN_of_clear (h : reservedClearN w = true) : wordN (opField w) = w := by
  simp only [reservedClearN, Bool.and_eq_true, beq_iff_eq] at h
  obtain ⟨htop, hbody⟩ := h
  have hword := fields_eq_word w
  rwa [htop, hbody] at hword

/-- Format L. -/
theorem wordL_of_clear (h : reservedClearL w = true) : wordL (opField w) (sigField w) (levelField w) = w := by
  simp only [reservedClearL, Bool.and_eq_true, beq_iff_eq] at h
  obtain ⟨⟨htop, hmiddle⟩, hlow⟩ := h
  have hword := fields_eq_word w
  rwa [← fieldsL_eq_body, htop, hmiddle, hlow] at hword

/-- Format S. -/
theorem wordS_of_clear (h : reservedClearS w = true) : wordS (opField w) (widthField w) (valueField w) = w := by
  simp only [reservedClearS, Bool.and_eq_true, beq_iff_eq] at h
  obtain ⟨htop, hmiddle⟩ := h
  have hword := fields_eq_word w
  rwa [← fieldsS_eq_body, htop, hmiddle] at hword

end Rebuild

/-! ### The fields of a written word -/

/-- Two words put together from parts of the same widths are equal only part by part. -/
theorem bitVec_append_inj {m n : Nat} {x y : BitVec m} {u v : BitVec n} (h : x ++ u = y ++ v) : x = y ∧ u = v := by
  have hx := congrArg (BitVec.extractLsb' n m) h
  have hu := congrArg (BitVec.extractLsb' 0 n) h
  rw [BitVec.extractLsb'_append_eq_left, BitVec.extractLsb'_append_eq_left] at hx
  rw [BitVec.extractLsb'_append_eq_right, BitVec.extractLsb'_append_eq_right] at hu
  exact ⟨hx, hu⟩

section Written
variable (op : BitVec 4) (body : BitVec 40) (sig : BitVec 3) (level : Level) (width : BitVec 6) (value : Word)

/-- The three parts of a word with its top bits clear. -/
theorem fields_append {w : Command} (h : w = (0#4 ++ op) ++ body) :
    field 44 4 w = 0 ∧ opField w = op ∧ field 0 40 w = body := by
  obtain ⟨hhead, hbody⟩ := bitVec_append_inj ((fields_eq_word w).trans h)
  obtain ⟨htop, hop⟩ := bitVec_append_inj hhead
  exact ⟨htop, hop, hbody⟩

theorem fields_wordN : field 44 4 (wordN op) = 0 ∧ opField (wordN op) = op ∧ field 0 40 (wordN op) = 0 :=
  fields_append op 0#40 rfl

theorem fields_wordL : field 44 4 (wordL op sig level) = 0 ∧ opField (wordL op sig level) = op
    ∧ field 35 5 (wordL op sig level) = 0 ∧ sigField (wordL op sig level) = sig
    ∧ field 1 31 (wordL op sig level) = 0 ∧ levelField (wordL op sig level) = level := by
  obtain ⟨htop, hop, hbody⟩ := fields_append (w := wordL op sig level) op _ rfl
  obtain ⟨hhigh, hlow⟩ := bitVec_append_inj ((fieldsL_eq_body _).trans hbody)
  obtain ⟨hmiddle, hsig⟩ := bitVec_append_inj hhigh
  obtain ⟨hzero, hlevel⟩ := bitVec_append_inj hlow
  exact ⟨htop, hop, hmiddle, hsig, hzero, BitVec.ofBool_eq_iff_eq.mp hlevel⟩

theorem fields_wordS : field 44 4 (wordS op width value) = 0 ∧ opField (wordS op width value) = op
    ∧ field 38 2 (wordS op width value) = 0 ∧ widthField (wordS op width value) = width
    ∧ valueField (wordS op width value) = value := by
  obtain ⟨htop, hop, hbody⟩ := fields_append (w := wordS op width value) op _ rfl
  obtain ⟨hhigh, hvalue⟩ := bitVec_append_inj ((fieldsS_eq_body _).trans hbody)
  obtain ⟨hmiddle, hwidth⟩ := bitVec_append_inj hhigh
  exact ⟨htop, hop, hmiddle, hwidth, hvalue⟩

@[simp] theorem opField_wordN : opField (wordN op) = op := by
  obtain ⟨-, hop, -⟩ := fields_wordN op
  exact hop

@[simp] theorem opField_wordL : opField (wordL op sig level) = op := by
  obtain ⟨-, hop, -⟩ := fields_wordL op sig level
  exact hop

@[simp] theorem opField_wordS : opField (wordS op width value) = op := by
  obtain ⟨-, hop, -⟩ := fields_wordS op width value
  exact hop

@[simp] theorem sigField_wordL : sigField (wordL op sig level) = sig := by
  obtain ⟨-, -, -, hsig, -⟩ := fields_wordL op sig level
  exact hsig

@[simp] theorem levelField_wordL : levelField (wordL op sig level) = level := by
  obtain ⟨-, -, -, -, -, hlevel⟩ := fields_wordL op sig level
  exact hlevel

@[simp] theorem widthField_wordS : widthField (wordS op width value) = width := by
  obtain ⟨-, -, -, hwidth, -⟩ := fields_wordS op width value
  exact hwidth

@[simp] theorem valueField_wordS : valueField (wordS op width value) = value := by
  obtain ⟨-, -, -, -, hvalue⟩ := fields_wordS op width value
  exact hvalue

@[simp] theorem reservedClearN_wordN : reservedClearN (wordN op) = true := by
  obtain ⟨htop, -, hbody⟩ := fields_wordN op
  simp [reservedClearN, htop, hbody]

@[simp] theorem reservedClearL_wordL : reservedClearL (wordL op sig level) = true := by
  obtain ⟨htop, -, hmiddle, -, hzero, -⟩ := fields_wordL op sig level
  simp [reservedClearL, htop, hmiddle, hzero]

@[simp] theorem reservedClearS_wordS : reservedClearS (wordS op width value) = true := by
  obtain ⟨htop, -, hmiddle, -⟩ := fields_wordS op width value
  simp [reservedClearS, htop, hmiddle]

end Written

/-! ### What a word that decodes is -/

theorem whenClear_eq_ok {clear : Bool} {i j : Instr} : whenClear clear i = .ok j ↔ clear = true ∧ i = j := by
  cases clear <;> simp [whenClear]

section Decoded
variable {w : Command} {i j : Instr} {op : BitVec 4} (hop : (opField w).toNat = op.toNat)
include hop

theorem wordN_of_decoded (h : whenClear (reservedClearN w) i = .ok j) : i = j ∧ wordN op = w := by
  obtain ⟨hclear, hi⟩ := whenClear_eq_ok.mp h
  exact ⟨hi, BitVec.eq_of_toNat_eq hop ▸ wordN_of_clear hclear⟩

theorem wordL_of_decoded (h : whenClear (reservedClearL w) i = .ok j) :
    i = j ∧ wordL op (sigField w) (levelField w) = w := by
  obtain ⟨hclear, hi⟩ := whenClear_eq_ok.mp h
  exact ⟨hi, BitVec.eq_of_toNat_eq hop ▸ wordL_of_clear hclear⟩

theorem wordS_of_decoded (h : whenClear (reservedClearS w) i = .ok j) :
    i = j ∧ wordS op (widthField w) (valueField w) = w := by
  obtain ⟨hclear, hi⟩ := whenClear_eq_ok.mp h
  exact ⟨hi, BitVec.eq_of_toNat_eq hop ▸ wordS_of_clear hclear⟩

end Decoded

/-- Decoding the word of a command: its operation and operand fields are those it was written with, and its reserved bits
are clear. -/
theorem decode_encode (i : Instr) : decode (encode i) = .ok i := by
  cases i
  case openLink | closeLink | rdtdo | connect | measure =>
    simp [encode, decode, opField_wordN, reservedClearN_wordN, whenClear]
  case setsig sig level => simp [encode, decode, opField_wordL, reservedClearL_wordL, whenClear]
  case shiftIr width value | shiftDr width value | execInReset width value =>
    simp [encode, decode, opField_wordS, reservedClearS_wordS, whenClear]

/-- In each arm of the decoder the reserved bits are clear, so the word is the one its fields write. -/
theorem encode_of_decode {w : Command} {i : Instr} (h : decode w = .ok i) : encode i = w := by
  unfold decode at h
  split at h
  · next hop => obtain ⟨rfl, hw⟩ := wordN_of_decoded (op := 1) hop h; exact hw
  · next hop => obtain ⟨rfl, hw⟩ := wordN_of_decoded (op := 2) hop h; exact hw
  · next hop => obtain ⟨rfl, hw⟩ := wordL_of_decoded (op := 3) hop h; exact hw
  · next hop => obtain ⟨rfl, hw⟩ := wordN_of_decoded (op := 4) hop h; exact hw
  · next hop => obtain ⟨rfl, hw⟩ := wordN_of_decoded (op := 5) hop h; exact hw
  · next hop => obtain ⟨rfl, hw⟩ := wordS_of_decoded (op := 6) hop h; exact hw
  · next hop => obtain ⟨rfl, hw⟩ := wordS_of_decoded (op := 7) hop h; exact hw
  · next hop => obtain ⟨rfl, hw⟩ := wordN_of_decoded (op := 8) hop h; exact hw
  · next hop => obtain ⟨rfl, hw⟩ := wordS_of_decoded (op := 9) hop h; exact hw
  · exact nomatch h

/-! ### The match and mask table (R75) -/

theorem encode_injective : Function.Injective encode := by
  intro i j h
  have hdecode : decode (encode i) = decode (encode j) := congrArg decode h
  rw [decode_encode i, decode_encode j] at hdecode
  exact Except.ok.inj hdecode

/-- The nine rows are the rows of the commands. -/
theorem mem_rows_iff (r : Row) : r ∈ rows ↔ ∃ i : Instr, i.row = r := by
  constructor
  · intro h
    simp only [rows, List.mem_cons, List.not_mem_nil, or_false] at h
    obtain h | h | h | h | h | h | h | h | h := h <;> exact ⟨_, h.symm⟩
  · rintro ⟨i, rfl⟩
    cases i <;> simp [rows, Instr.row]

/-- A written word is selected by the row of its command. -/
theorem row_selects_encode (i : Instr) : i.row.selects (encode i) = true := by
  cases i with
  | openLink => exact Laws.EncodedWordSelectsItsRow.openLink
  | closeLink => exact Laws.EncodedWordSelectsItsRow.closeLink
  | setsig sig level => exact Laws.EncodedWordSelectsItsRow.setsig sig level
  | rdtdo => exact Laws.EncodedWordSelectsItsRow.rdtdo
  | connect => exact Laws.EncodedWordSelectsItsRow.connect
  | shiftIr width value => exact Laws.EncodedWordSelectsItsRow.shiftIr width value
  | shiftDr width value => exact Laws.EncodedWordSelectsItsRow.shiftDr width value
  | measure => exact Laws.EncodedWordSelectsItsRow.measure
  | execInReset width value => exact Laws.EncodedWordSelectsItsRow.execInReset width value

section Masked
variable {w : Command} {op : BitVec 4}

/-- A field the mask covers is the pattern's. -/
theorem field_of_masked {mask pattern : Command} {lo n : Nat} (h : w &&& mask = pattern)
    (hmask : field lo n mask = BitVec.allOnes n) : field lo n w = field lo n pattern := by
  rw [← h, field_and, hmask, BitVec.and_allOnes]

/-- The mask of format N covers the whole word. -/
theorem eq_wordN_of_masked (h : w &&& 0xFFFFFFFFFFFF = wordN op) : wordN op = w :=
  h.symm.trans BitVec.and_allOnes

/-- The mask of format L covers all but `sig` and `level`. -/
theorem eq_wordL_of_masked (h : w &&& 0xFFF8FFFFFFFE = wordL op 0 false) :
    wordL op (sigField w) (levelField w) = w := by
  have hw : opField w = op := (field_of_masked h (by decide)).trans (opField_wordL op 0 false)
  have hclear : reservedClearL w = true := by
    rw [reservedClearL, field_of_masked (lo := 44) (n := 4) h (by decide),
      field_of_masked (lo := 35) (n := 5) h (by decide), field_of_masked (lo := 1) (n := 31) h (by decide)]
    exact reservedClearL_wordL op 0 false
  exact hw ▸ wordL_of_clear hclear

/-- The mask of format S covers all but `width` and `value`. -/
theorem eq_wordS_of_masked (h : w &&& 0xFFC000000000 = wordS op 0 0) :
    wordS op (widthField w) (valueField w) = w := by
  have hw : opField w = op := (field_of_masked h (by decide)).trans (opField_wordS op 0 0)
  have hclear : reservedClearS w = true := by
    rw [reservedClearS, field_of_masked (lo := 44) (n := 4) h (by decide),
      field_of_masked (lo := 38) (n := 2) h (by decide)]
    exact reservedClearS_wordS op 0 0
  exact hw ▸ wordS_of_clear hclear

end Masked

/-- A word that selects the row of a command is the word of a command of that row. -/
theorem exists_encode_of_selects {w : Command} (i : Instr) (h : i.row.selects w = true) :
    ∃ j, encode j = w ∧ j.row = i.row := by
  have hmasked : w &&& i.row.mask = i.row.pattern := beq_iff_eq.mp h
  cases i with
  | openLink => exact ⟨.openLink, eq_wordN_of_masked (op := 1) hmasked, rfl⟩
  | closeLink => exact ⟨.closeLink, eq_wordN_of_masked (op := 2) hmasked, rfl⟩
  | setsig => exact ⟨.setsig _ _, eq_wordL_of_masked (op := 3) hmasked, rfl⟩
  | rdtdo => exact ⟨.rdtdo, eq_wordN_of_masked (op := 4) hmasked, rfl⟩
  | connect => exact ⟨.connect, eq_wordN_of_masked (op := 5) hmasked, rfl⟩
  | shiftIr => exact ⟨.shiftIr _ _, eq_wordS_of_masked (op := 6) hmasked, rfl⟩
  | shiftDr => exact ⟨.shiftDr _ _, eq_wordS_of_masked (op := 7) hmasked, rfl⟩
  | measure => exact ⟨.measure, eq_wordN_of_masked (op := 8) hmasked, rfl⟩
  | execInReset => exact ⟨.execInReset _ _, eq_wordS_of_masked (op := 9) hmasked, rfl⟩

end Sys2Proof
end

section
/-! SUPPORT. What the assembler reads is what the text of a command writes: numbers, operands, commands (spec
30_encoding.md R81). -/

namespace Sys2Proof.Machine

/-! ### Numbers in hexadecimal -/

theorem digitValue_hexDigit {d : Nat} (h : d < 16) : digitValue 16 (hexDigit d) = some d := by
  revert d
  decide

theorem readDigits_append (base : Nat) (xs ys : List Char) (n : Nat) :
    readDigits base n (xs ++ ys) = (readDigits base n xs).bind (fun m => readDigits base m ys) := by
  induction xs generalizing n with
  | nil => rfl
  | cons c rest ih =>
    simp only [List.cons_append, readDigits, Option.bind_assoc, ih]

/-- The `k` digits of a number that has no more read back as the number. -/
theorem readDigits_hexDigits {k n : Nat} (h : n < 16 ^ k) : readDigits 16 0 (hexDigits k n) = some n := by
  induction k generalizing n with
  | zero => simp [hexDigits, readDigits]; omega
  | succ k ih =>
    have hhigh : n / 16 < 16 ^ k := by rw [pow_succ] at h; omega
    have hvalue : n / 16 * 16 + n % 16 = n := by omega
    rw [hexDigits, readDigits_append, ih hhigh]
    simp [readDigits, digitValue_hexDigit (Nat.mod_lt n (by decide)), hvalue]

theorem readNumber_hexNumber {k n : Nat} (h : n < 16 ^ (k + 1)) : readNumber (hexNumber (k + 1) n) = some n := by
  have hne : hexDigits (k + 1) n ≠ [] := by simp [hexDigits]
  rw [hexNumber, readNumber, if_neg hne, readDigits_hexDigits h]

/-- A field of `n` bits written with enough digits reads back as the field. -/
theorem readField_hexNumber {n k : Nat} (v : BitVec n) (h : 2 ^ n ≤ 16 ^ (k + 1)) :
    readField n (hexNumber (k + 1) v.toNat) = some v := by
  rw [readField, readNumber_hexNumber (Nat.lt_of_lt_of_le v.isLt h)]
  simp [v.isLt]

theorem readLevel_hexNumber (level : Level) : readLevel (hexNumber 1 level.toNat) = some level := by
  cases level <;> decide

theorem readSignal_signalText (sig : BitVec 3) : readSignal (signalText sig) = some sig := by
  revert sig
  decide

/-! ### Text without commas and blanks -/

/-- No comma and no blank: what an operand is made of. -/
def Solid (cs : List Char) : Prop := ∀ c ∈ cs, c ≠ ',' ∧ c ≠ ' '

theorem solid_cons {c : Char} {cs : List Char} : Solid (c :: cs) ↔ (c ≠ ',' ∧ c ≠ ' ') ∧ Solid cs := List.forall_mem_cons

theorem solid_hexDigits (k n : Nat) : Solid (hexDigits k n) := by
  have hdigit : ∀ d < 16, hexDigit d ≠ ',' ∧ hexDigit d ≠ ' ' := by decide
  induction k generalizing n with
  | zero => exact List.forall_mem_nil _
  | succ k ih =>
    rw [hexDigits, Solid, List.forall_mem_append]
    exact ⟨ih (n / 16), List.forall_mem_singleton.mpr (hdigit _ (Nat.mod_lt n (by decide)))⟩

theorem solid_hexNumber (k n : Nat) : Solid (hexNumber k n) :=
  solid_cons.mpr ⟨by decide, solid_cons.mpr ⟨by decide, solid_hexDigits k n⟩⟩

theorem solid_of_mem_signalNames {name : List Char} (h : name ∈ signalNames) : Solid name := by
  revert name
  simp [signalNames, Solid]

theorem solid_signalText (sig : BitVec 3) : Solid (signalText sig) := by
  unfold signalText
  split
  · next name hname => exact solid_of_mem_signalNames (List.mem_of_getElem? hname)
  · exact solid_hexNumber 1 sig.toNat

theorem Solid.comma_notMem {cs : List Char} (h : Solid cs) : ',' ∉ cs := fun hmem => (h ',' hmem).1 rfl

/-! ### Cutting at commas and dropping blanks -/

theorem splitCommas_eq_singleton {cs : List Char} (h : ',' ∉ cs) : splitCommas cs = [cs] := by
  induction cs with
  | nil => rfl
  | cons c rest ih =>
    rw [List.mem_cons, not_or] at h
    rw [splitCommas, ih h.2]
    simp [Ne.symm h.1]

theorem splitCommas_ne_nil (cs : List Char) : splitCommas cs ≠ [] := by
  cases cs with
  | nil => simp [splitCommas]
  | cons c rest =>
    rw [splitCommas]
    split
    · simp
    · split <;> simp

theorem splitCommas_append {xs ys : List Char} (h : ',' ∉ xs) :
    splitCommas (xs ++ ',' :: ys) = xs :: splitCommas ys := by
  induction xs with
  | nil =>
    rw [List.nil_append, splitCommas]
    split
    · next hnil => exact absurd hnil (splitCommas_ne_nil ys)
    · next hcons => simp [hcons]
  | cons c rest ih =>
    rw [List.mem_cons, not_or] at h
    rw [List.cons_append, splitCommas, ih h.2]
    simp [Ne.symm h.1]

theorem dropWhile_of_solid {cs : List Char} (h : Solid cs) : cs.dropWhile (· = ' ') = cs := by
  cases cs with
  | nil => rfl
  | cons c rest =>
    obtain ⟨⟨-, hblank⟩, -⟩ := solid_cons.mp h
    simp [hblank]

theorem trim_of_solid {cs : List Char} (h : Solid cs) : trim cs = cs := by
  have hreverse : Solid cs.reverse := fun c hc => h c (List.mem_reverse.mp hc)
  rw [trim, dropWhile_of_solid h, dropWhile_of_solid hreverse, List.reverse_reverse]

theorem trim_blank_cons (cs : List Char) : trim (' ' :: cs) = trim cs := by
  simp [trim]

/-- Two operands without commas and blanks, written with a blank before each and a comma between them, are read as
those two. -/
theorem readOperands_pair {a b : List Char} (ha : Solid a) (hb : Solid b) :
    readOperands (' ' :: (a ++ ',' :: ' ' :: b)) = [a, b] := by
  have hfirst : ',' ∉ ' ' :: a := by simp [ha.comma_notMem]
  have hsecond : ',' ∉ ' ' :: b := by simp [hb.comma_notMem]
  have hcut : splitCommas (' ' :: (a ++ ',' :: ' ' :: b)) = [' ' :: a, ' ' :: b] := by
    rw [← List.cons_append, splitCommas_append hfirst, splitCommas_eq_singleton hsecond]
  simp [readOperands, hcut, trim_blank_cons, trim_of_solid ha, trim_of_solid hb]

/-! ### Commands -/

/-- A line is cut at its first blank. -/
theorem assemble_append {mnemonic : List Char} (h : ' ' ∉ mnemonic) (rest : List Char) :
    assemble (mnemonic ++ ' ' :: rest) = readCommand mnemonic (' ' :: rest) := by
  have hblank : ∀ c ∈ mnemonic, decide (c ≠ ' ') = true := fun c hc => decide_eq_true fun heq => h (heq ▸ hc)
  rw [assemble, List.takeWhile_append_of_pos hblank, List.dropWhile_append_of_pos hblank]
  simp

/-- The text of a shift command reads back under a mnemonic that stands for that command. -/
theorem assemble_shiftText {mnemonic : List Char} {make : BitVec 6 → Word → Instr}
    (hblank : ' ' ∉ mnemonic)
    (hread : ∀ operands, readCommand mnemonic operands = readShift make (readOperands operands))
    (width : BitVec 6) (value : Word) : assemble (shiftText mnemonic width value) = some (make width value) := by
  rw [shiftText, assemble_append hblank, hread, readOperands_pair (solid_hexNumber 2 _) (solid_hexNumber 8 _), readShift,
    readField_hexNumber width (by decide), readField_hexNumber value (by decide)]
  rfl

theorem assemble_setsigText (sig : BitVec 3) (level : Level) :
    assemble ("SETSIG".toList ++ ' ' :: (signalText sig ++ ',' :: ' ' :: hexNumber 1 level.toNat)) =
      some (.setsig sig level) := by
  have hread : ∀ operands, readCommand "SETSIG".toList operands = readSetsig (readOperands operands) := fun _ => rfl
  rw [assemble_append (by simp), hread, readOperands_pair (solid_signalText sig) (solid_hexNumber 1 _),
    readSetsig, readSignal_signalText, readLevel_hexNumber]
  rfl

end Sys2Proof.Machine
end

section
/-! SUPPORT. The operand of a shift is read only below its width (spec 30_encoding.md R73). -/

namespace Sys2Proof.Machine

/-- What a scan drives does not depend on operand bits from the width up (R73). -/
theorem scanTdi_congr {v w : Word} {W : Nat} (h : ∀ k < W, v.getLsbD k = w.getLsbD k) (lead i : Nat) :
    scanTdi v W lead i = scanTdi w W lead i := by
  unfold scanTdi
  split
  · rfl
  · split
    · exact h _ (by omega)
    · rfl

theorem scanShift_congr {v w : Word} {W : Nat} (h : ∀ k < W, v.getLsbD k = w.getLsbD k) (P L : Nat) (s : State) :
    scanShift v W P L s = scanShift w W P L s := by
  have hbody : scanCycle v W (L - P - W) L = scanCycle w W (L - P - W) L := by
    funext i rs
    simp only [scanCycle, scanTdi_congr h]
  rw [scanShift, hbody, scanShift]

theorem instructionShift_congr {v w : Word} {W : Nat} (h : ∀ k < W, v.getLsbD k = w.getLsbD k) (s : State) :
    instructionShift W v s = instructionShift W w s := by
  simp only [instructionShift, scanShift_congr h]

theorem dataShift_congr {v w : Word} {W : Nat} (h : ∀ k < W, v.getLsbD k = w.getLsbD k) (s : State) :
    dataShift W v s = dataShift W w s := by
  simp only [dataShift, scanShift_congr h]

end Sys2Proof.Machine
end

section
/-! SUPPORT. Commands in a row, and what they do to the link; the release of both reset lines and the close that end a
disconnect sequence (spec 30_encoding.md R82, 70_reset_and_hazards.md R204). -/

namespace Sys2Proof.Machine

/-- A sequence of pin operations with a response at its end leaves the link. -/
theorem link_respond_of_effect {s u : State} (h : Effect s u) (e : Status) (a b : Word) :
    (respond e a b u).link = s.link := h.link

@[simp] theorem recordLengths_link (r : Option Nat × Option Nat) (s : State) : (recordLengths r s).link = s.link := by
  rcases r with ⟨_ | m, _ | n⟩ <;> rfl

/-- No command but OPEN and CLOSE writes the link (R20, R91, R93). -/
theorem exec_keeps_link {i : Instr} {s t : State} (hopen : i ≠ .openLink) (hclose : i ≠ .closeLink)
    (h : exec i s = .next t) : t.link = s.link := by
  cases i <;> cases h
  case openLink => exact absurd rfl hopen
  case closeLink => exact absurd rfl hclose
  case setsig sig level =>
    split
    · rfl
    · split <;> rfl
  case rdtdo =>
    split
    · rfl
    · exact link_respond_of_effect (probeSample_effect s) ..
  case connect =>
    split
    · rfl
    · exact link_respond_of_effect (connectSequence_effect s) ..
  case shiftIr width value =>
    split
    · rfl
    · exact link_respond_of_effect (instructionShift_effect ..) ..
  case shiftDr width value =>
    split
    · rfl
    · exact link_respond_of_effect (dataShift_effect ..) ..
  case measure =>
    split
    · rfl
    · rw [recordLengths_link]
      exact (probeBoth_effect s).link
  case execInReset width value =>
    split
    · rfl
    · have asserted := (setSignal_effect .resetRequest false s).trans (wait_effect .reset _)
      exact link_respond_of_effect ((asserted.trans (instructionShift_effect ..)).trans (setSignal_effect ..)) ..

/-- Commands in a row can be run in two parts. -/
theorem execAll_append {is js : List Instr} {s t : State} (h : execAll is s = .next t) :
    execAll (is ++ js) s = execAll js t := by
  induction is generalizing s with
  | nil => cases h; rfl
  | cons i rest ih =>
    obtain ⟨u, hu, -⟩ := exec_commandEffect i s
    simp only [execAll, List.cons_append, hu] at h ⊢
    exact ih h

theorem execAll_keeps_link {is : List Instr} (his : ∀ i ∈ is, i ≠ .openLink ∧ i ≠ .closeLink) (s : State) :
    ∃ t, execAll is s = .next t ∧ t.link = s.link := by
  induction is generalizing s with
  | nil => exact ⟨s, rfl, rfl⟩
  | cons i rest ih =>
    obtain ⟨⟨hopen, hclose⟩, hrest⟩ := List.forall_mem_cons.mp his
    obtain ⟨u, hu, -⟩ := exec_commandEffect i s
    obtain ⟨t, ht, hlink⟩ := ih hrest u
    refine ⟨t, ?_, hlink.trans (exec_keeps_link hopen hclose hu)⟩
    simp only [execAll, hu, ht]

/-- SETSIG of a signal that has a name, with the link open (R94). -/
theorem exec_setsig_open {s : State} {sig : BitVec 3} {x : Signal} (hlink : s.link = .Open)
    (hsig : signalOf sig = some x) (level : Level) :
    exec (.setsig sig level) s = .next (respond .OK 0 0 (setSignal x level s)) := by
  simp only [exec, execSetsig, linkRefusal_open hlink, hsig]

/-- RELEASE drives both reset lines high, and CLOSE leaves the latches as they are (R82, R93). -/
theorem execAll_release_close {s : State} (hlink : s.link = .Open) :
    ∃ t, execAll (releaseCommands ++ [.closeLink]) s = .next t
      ∧ t.link = .Closed ∧ t.out.resetRequest = true ∧ t.out.trst = true := by
  have hrequest := exec_setsig_open (sig := 3) hlink rfl true
  have htrst := exec_setsig_open (s := respond .OK 0 0 (setSignal .resetRequest true s)) (sig := 4) hlink rfl true
  simp only [releaseCommands, execAll, List.cons_append, List.nil_append, hrequest, htrst]
  exact ⟨_, rfl, by simp [hlink], rfl, rfl⟩

/-- Either form of disconnect ends with RELEASE and CLOSE; what comes before opens and closes nothing (R82). -/
theorem disconnect_expand (leaveInDebug : Bool) (jumpZero idcode : Word) :
    ∃ shifts, (Pseudo.disconnect leaveInDebug jumpZero idcode).expand = shifts ++ (releaseCommands ++ [.closeLink])
      ∧ ∀ i ∈ shifts, i ≠ .openLink ∧ i ≠ .closeLink := by
  cases leaveInDebug with
  | false => exact ⟨_, List.append_assoc .., by simp⟩
  | true => exact ⟨_, List.append_assoc .., by simp⟩

end Sys2Proof.Machine
end

section
/-! PROOFS. The statements of 30_encoding.md: words and commands (R71 to R77), the table (R75), statuses (R79), text and
pseudo-instructions (R81, R82), operands (R73). -/

namespace Sys2Proof.Machine

/-- Settles O1: the fields of a written word are those it was written with, and its reserved bits are clear. -/
theorem decodeOfEncode : Obligations.DecodeOfEncode := decode_encode

/-- Settles O2: a word that decodes has its reserved bits clear, so it is the word its fields write. -/
theorem encodeOfDecode : Obligations.EncodeOfDecode := fun _ _ h => encode_of_decode h

/-- Settles O3: a word selects a row exactly when it is the word of a command of that row, and a word is the word of one
command only. -/
theorem decodeAgreesWithTheOpcodeTable : Obligations.DecodeAgreesWithTheOpcodeTable := by
  refine ⟨fun w i h => ⟨(mem_rows_iff _).mpr ⟨i, rfl⟩, ?_⟩, fun w r hr hsel => ?_, fun w r q hr hq hrsel hqsel => ?_⟩
  · rw [← encode_of_decode h]
    exact row_selects_encode i
  · obtain ⟨i, rfl⟩ := (mem_rows_iff r).mp hr
    obtain ⟨j, rfl, hrow⟩ := exists_encode_of_selects i hsel
    exact ⟨j, decode_encode j, hrow⟩
  · obtain ⟨i, rfl⟩ := (mem_rows_iff r).mp hr
    obtain ⟨k, rfl⟩ := (mem_rows_iff q).mp hq
    obtain ⟨j, rfl, hj⟩ := exists_encode_of_selects i hrsel
    obtain ⟨l, hl, hk⟩ := exists_encode_of_selects k hqsel
    rw [← hj, ← hk, encode_injective hl]

/-- Settles O6: the mnemonic ends at the first blank, the operands stand between blanks and commas and hold neither, and
each reads back as the field it was written from. -/
theorem assembleOfCommandText : Obligations.AssembleOfCommandText := by
  intro i
  cases i with
  | openLink => decide
  | closeLink => decide
  | setsig sig level => exact assemble_setsigText sig level
  | rdtdo => decide
  | connect => decide
  | shiftIr width value => exact assemble_shiftText (by simp) (fun _ => rfl) width value
  | shiftDr width value => exact assemble_shiftText (by simp) (fun _ => rfl) width value
  | measure => decide
  | execInReset width value => exact assemble_shiftText (by simp) (fun _ => rfl) width value

/-- Settles O28: a shift reads its operand only through what its scan drives. -/
theorem operandBitsAboveTheWidthAreIgnored : Obligations.OperandBitsAboveTheWidthAreIgnored := by
  intro width v w s h
  refine ⟨?_, ?_, ?_⟩
  · simp only [exec, execShiftIr, instructionShift_congr h]
  · simp only [exec, execShiftDr, dataShift_congr h]
  · simp only [exec, execExecInReset, instructionShift_congr h]

/-- Settles O51: what comes before the release leaves the link open; the release drives both lines; CLOSE keeps the
latches. -/
theorem disconnectReleasesEverything : Obligations.DisconnectReleasesEverything := by
  intro s leaveInDebug jumpZero idcode hlink
  obtain ⟨shifts, hexpand, hshifts⟩ := disconnect_expand leaveInDebug jumpZero idcode
  obtain ⟨u, hu, hopen⟩ := execAll_keeps_link hshifts s
  rw [hexpand, execAll_append hu]
  exact execAll_release_close (hopen.trans hlink)

/-- Settles O4: each of the sixteen words is closed, and the decoder is run on it. -/
theorem wordsOfTheVectorsDecode : Obligations.WordsOfTheVectorsDecode := by
  unfold Obligations.WordsOfTheVectorsDecode
  decide

/-- Settles O7: the expansions are the commands listed; the default width is 4, and the words of the commands with fixed
operands are computed. -/
theorem pseudoInstructionsExpand : Obligations.PseudoInstructionsExpand :=
  fun _ _ _ => ⟨rfl, rfl, by decide, by decide, rfl, rfl⟩

/-- Settles O8: the numbers are those of the list, and each of the twelve is below 12. -/
theorem statusNumbersAreAsListed : Obligations.StatusNumbersAreAsListed :=
  ⟨rfl, fun e => by cases e <;> decide⟩

end Sys2Proof.Machine
end

section
/-! SUPPORT. The commands of the link driver, one equation for each way they go on: OPEN, CLOSE, SETSIG, RDTDO (spec
40_link_ops.md R90 to R98, 30_encoding.md R76). -/

namespace Sys2Proof.Machine

/-! ### Refused by the link -/

/-- Every command but OPEN and CLOSE is stopped by a link that is not open (R90). -/
theorem linkStops {i : Instr} (hopen : i ≠ .openLink) (hclose : i ≠ .closeLink) : LinkStops i :=
  fun _ =>
    ⟨fun hlink => exec_of_linkRefusal (linkRefusal_failed hlink) hopen hclose,
      fun hlink => exec_of_linkRefusal (linkRefusal_closed hlink) hopen hclose⟩

theorem linkStops_setsig (sig : BitVec 3) (level : Level) : LinkStops (.setsig sig level) :=
  linkStops Instr.noConfusion Instr.noConfusion

theorem linkStops_rdtdo : LinkStops .rdtdo := linkStops Instr.noConfusion Instr.noConfusion

/-! ### OPEN (R91) and CLOSE (R93) -/

section OpenClose
variable {s : State}

theorem exec_openLink_failed (hlink : s.link = .Failed) : exec .openLink s = .next (raise .LinkFailed s) := by
  simp only [exec, execOpenLink, openRefusal, hlink]

theorem exec_openLink_open (hlink : s.link = .Open) : exec .openLink s = .next (raise .LinkAlreadyOpen s) := by
  simp only [exec, execOpenLink, openRefusal, hlink]

theorem exec_openLink_closed (hlink : s.link = .Closed) :
    exec .openLink s = .next (openWith (nextAnswer s) (consumeAnswer s)) := by
  simp only [exec, execOpenLink, openRefusal, hlink, askEnvironment_eq]

end OpenClose

/-- CLOSE writes the link only: Failed stays, any other link ends Closed (R93). -/
theorem exec_closeLink (s : State) :
    exec .closeLink s = .next (respond .OK 0 0 { s with link := if s.link = .Failed then .Failed else .Closed }) := by
  cases hlink : s.link <;> simp [exec, execCloseLink, hlink]

/-- CLOSE is idempotent (R93). -/
theorem exec_closeLink_closeLink (s : State) : execAll [.closeLink, .closeLink] s = exec .closeLink s := by
  simp only [execAll, exec_closeLink, respond]
  by_cases hlink : s.link = .Failed
  · simp [hlink]
  · simp [hlink]

theorem wire_of_not_open {s : State} (h : s.link ≠ .Open) (x : Signal) : wire s x = none := by
  cases hlink : s.link with
  | Closed => simp only [wire, hlink]
  | Open => exact absurd hlink h
  | Failed => simp only [wire, hlink]

/-- No command leaves `Failed` (R174): OPEN and all that need the link are refused, CLOSE keeps it. -/
theorem exec_keeps_failed (i : Instr) {s : State} (hlink : s.link = .Failed) :
    ∃ t, exec i s = .next t ∧ t.link = .Failed := by
  by_cases hopen : i = .openLink
  · subst hopen
    exact ⟨_, exec_openLink_failed hlink, hlink⟩
  · by_cases hclose : i = .closeLink
    · subst hclose
      exact ⟨_, exec_closeLink s, if_pos hlink⟩
    · exact ⟨_, exec_of_linkRefusal (linkRefusal_failed hlink) hopen hclose, hlink⟩

/-! ### SETSIG (R94, R95) and RDTDO (R96) -/

/-- The numbers 0 to 4 name a signal, and no other does (R76). -/
theorem signalOf_isSome (sig : BitVec 3) : (signalOf sig).isSome = true ↔ sig.toNat ≤ 4 := by
  revert sig
  decide

section Raw
variable {s : State} (hlink : s.link = .Open)
include hlink

theorem exec_setsig_badSignal {sig : BitVec 3} (hsig : 5 ≤ sig.toNat) (level : Level) :
    exec (.setsig sig level) s = .next (raise .BadSignal s) := by
  have hnone : signalOf sig = none := by
    rw [← Option.not_isSome_iff_eq_none, signalOf_isSome]
    omega
  simp only [exec, execSetsig, linkRefusal_open hlink, hnone]

/-- RDTDO is one settle wait and one sample of the environment's next answer (R96, R98). -/
theorem exec_rdtdo_open :
    exec .rdtdo s = .next (respond .OK (levelWord (answerAt s 0)) 0
      (moved s.out s.tap [.wait .settle, .sample (answerAt s 0)] 1 s)) := by
  have hsample : readDataOut (wait .settle s) = _ := probeSample_eq s
  simp only [exec, execRdtdo, linkRefusal_open hlink, hsample]

end Raw

end Sys2Proof.Machine
end

section
/-! PROOFS. The statements of 40_link_ops.md: OPEN (R91), CLOSE (R93), SETSIG (R94, R95), RDTDO (R96) and what the raw
access needs (R90). -/

namespace Sys2Proof.Machine

/-- Settles O15: the link stops it, then a number that names no signal; for each of the five signals it is the one write
of `setSignal`, whose `tapAfter` is the rising-edge rule at the clock and the trst rule at trst. -/
theorem setsigDrivesOneSignal : Obligations.SetsigDrivesOneSignal := by
  refine ⟨fun sig level => ⟨linkStops_setsig sig level, ?_, ?_, ?_, ?_⟩,
    fun s sig level hlink hsig => exec_setsig_badSignal hlink hsig level, fun s level hlink => ⟨?_, ?_, ?_, ?_, ?_⟩⟩
  · exact opField_wordL 3 sig level
  · exact sigField_wordL 3 sig level
  · exact levelField_wordL 3 sig level
  · exact reservedClearL_wordL 3 sig level
  · exact exec_setsig_open (x := .clock) hlink rfl level
  · exact exec_setsig_open (x := .mode) hlink rfl level
  · exact exec_setsig_open (x := .dataIn) hlink rfl level
  · exact exec_setsig_open (x := .resetRequest) hlink rfl level
  · exact exec_setsig_open (x := .trst) hlink rfl level

/-- Settles O13: OPEN is refused unless the link is Closed, and from Closed it does what the environment's answer says. -/
theorem openAcquiresTheLink : Obligations.OpenAcquiresTheLink := by
  refine ⟨rfl, fun i s hlink => exec_keeps_failed i hlink, fun s hlink => ⟨_, exec_closeLink s, by simp [hlink]⟩,
    fun s => ⟨exec_openLink_failed, exec_openLink_open, ?_, ?_, ?_⟩⟩
  all_goals
    intro hlink hanswer
    rw [exec_openLink_closed hlink, hanswer]
    rfl

/-- Settles O14: CLOSE writes the link and answers; the link it leaves is not open, and a second CLOSE leaves the same. -/
theorem closeReleasesTheLink : Obligations.CloseReleasesTheLink := by
  refine ⟨rfl, exec_closeLink, exec_closeLink_closeLink, fun s t x hexec => wire_of_not_open ?_ x⟩
  rw [exec_closeLink] at hexec
  cases hexec
  rw [respond_link]
  split <;> simp

/-- Settles O16: RDTDO is a wait and a sample, and its result is the level of that sample. -/
theorem rdtdoSamplesTheLine : Obligations.RdtdoSamplesTheLine :=
  ⟨rfl, linkStops_rdtdo, fun _ hlink => exec_rdtdo_open hlink⟩

/-- Settles O17: with the link open neither command tests anything but the signal's number. -/
theorem rawAccessNeedsTheLinkOnly : Obligations.RawAccessNeedsTheLinkOnly := by
  refine ⟨linkStops_setsig, linkStops_rdtdo, fun s sig level hlink hsig => ?_, fun s hlink => ?_⟩
  · obtain ⟨x, hx⟩ := Option.isSome_iff_exists.mp ((signalOf_isSome sig).mpr hsig)
    exact ⟨_, exec_setsig_open hlink hx level, respond_response ..⟩
  · exact ⟨_, _, exec_rdtdo_open hlink, respond_response ..⟩

end Sys2Proof.Machine
end

section
/-! SUPPORT. Clock cycles a host makes by hand with SETSIG, and CONNECT once the link is open (spec
41_tap_state_machine.md R110 to R113, R121). -/

namespace Sys2Proof.Machine

/-- A clock edge by hand, from a low clock with `trst` high, moves the tracked machine by the latch `mode` (R25, R94). -/
theorem exec_setsig_clock_rises {s : State} (hlink : s.link = .Open) (hc : s.out.clock = false)
    (ht : s.out.trst = true) :
    ∃ t, exec (.setsig 0 true) s = .next t ∧ t.tap = tapNext s.tap s.out.mode := by
  refine ⟨_, exec_setsig_open (x := .clock) hlink rfl true, ?_⟩
  simp [tapAfter, hc, ht]

/-- The three commands of a clock cycle by hand: `mode`, a rising clock, a falling clock (R113). -/
def handCycle (m : Level) : List Instr := [.setsig 1 m, .setsig 0 true, .setsig 0 false]

/-- A clock cycle by hand is one move, with one response at its end (R113). -/
theorem execAll_handCycle {s : State} (m : Level) (hlink : s.link = .Open) (hc : s.out.clock = false)
    (ht : s.out.trst = true) :
    execAll (handCycle m) s = .next (respond .OK 0 0
      (moved { s.out with mode := m } (tapNext s.tap m) [.set .mode m, .set .clock true, .set .clock false] 0 s)) := by
  have hmode := exec_setsig_open (sig := 1) hlink rfl m
  have hrise := exec_setsig_open (s := respond .OK 0 0 (setSignal .mode m s)) (sig := 0) hlink rfl true
  have hfall := exec_setsig_open
    (s := respond .OK 0 0 (setSignal .clock true (respond .OK 0 0 (setSignal .mode m s)))) (sig := 0) hlink rfl false
  simp only [handCycle, execAll, hmode, hrise, hfall]
  congr 1
  apply State.ext_fields <;> simp [tapAfter, hc, ht]

/-- `n` clock cycles by hand with `mode` high take `n` transitions (R112). -/
theorem execAll_handCycles_high (n : Nat) {s : State} (hlink : s.link = .Open) (hc : s.out.clock = false)
    (ht : s.out.trst = true) :
    ∃ t, execAll (List.replicate n (handCycle true)).flatten s = .next t
      ∧ t.tap = (fun x => tapNext x true)^[n] s.tap := by
  induction n generalizing s with
  | zero => exact ⟨s, rfl, rfl⟩
  | succ n ih =>
    rw [List.replicate_succ, List.flatten_cons, execAll_append (execAll_handCycle true hlink hc ht)]
    exact ih hlink hc ht

/-- CONNECT needs the link only: in every state of the tracked machine and of the latches it is its one move (R121). -/
theorem exec_connect_open {s : State} (hlink : s.link = .Open) :
    exec .connect s = .next (respond .OK 0 0 (moved Latches.idle .SelectDRScan connectEvents 0 s)) := by
  simp only [exec, execConnect, linkRefusal_open hlink, connectSequence_eq]

end Sys2Proof.Machine
end

section
/-! SUPPORT. What a target sees of a trace: the writes that reach it, and the machine it follows (spec 10_state.md R24,
70_reset_and_hazards.md R202). -/

namespace Sys2Proof.Machine

/-! ### Walks at a port -/

/-- The events of a clock cycle, at a port whose clock is low and whose `trst` is high, are one transition (R118). -/
theorem Port.foldl_navEvents (tms : Level) {p : Port} (hc : p.out.clock = false) (ht : p.out.trst = true) :
    (navEvents tms).foldl Port.see p = { out := { p.out with mode := tms }, tap := tapNext p.tap tms } := by
  simp [navEvents, pulseEvents, Port.see, Port.tapAfter, hc, ht]

/-- A walk at a port whose clock is low and whose `trst` is high takes the transitions of its cycles in order (R120). -/
theorem Port.foldl_walkEvents (walk : List Level) {p : Port} (hc : p.out.clock = false) (ht : p.out.trst = true) :
    (walkEvents walk).foldl Port.see p =
      { out := { p.out with mode := walk.getLastD p.out.mode }, tap := walk.foldl tapNext p.tap } := by
  induction walk generalizing p with
  | nil => rfl
  | cons tms rest ih =>
    rw [walkEvents, List.flatMap_cons, List.foldl_append, Port.foldl_navEvents tms hc ht, ← walkEvents,
      ih (p := ⟨{ p.out with mode := tms }, tapNext p.tap tms⟩) hc ht,
      List.getLastD_cons, List.foldl_cons]

/-- A walk whose last cycle has `mode` high leaves an idle port idle. -/
theorem Port.foldl_walkEvents_idle {walk : List Level} (h : walk.getLastD true = true) (x : Tap) :
    (walkEvents walk).foldl Port.see { out := Latches.idle, tap := x } =
      { out := Latches.idle, tap := walk.foldl tapNext x } := by
  have hmode : walk.getLastD Latches.idle.mode = true := h
  rw [Port.foldl_walkEvents walk rfl rfl, hmode]
  rfl

/-! ### The events that reach a target -/

/-- An event reaches a target unless it writes `trst` and that is not wired (R202). -/
def Event.reaches (trstWired : Bool) : Event → Bool
  | .set .trst _ => trstWired
  | .set .clock _ | .set .mode _ | .set .dataIn _ | .set .resetRequest _ | .sample _ | .wait _ => true

/-- What an event does at a target's port, and that it rewires nothing. -/
theorem Target.see_port (g : Target) (e : Event) :
    (g.see e).trstWired = g.trstWired
      ∧ (g.see e).port = if e.reaches g.trstWired then g.port.see e else g.port := by
  rcases e with ⟨sig, v⟩ | v | t
  case set =>
    cases sig
    case clock => cases v <;> cases hc : g.port.out.clock <;> simp [Target.see, Event.reaches, Target.clocked, hc]
    case trst => cases hw : g.trstWired <;> simp [Target.see, Event.reaches, hw]
    all_goals exact ⟨rfl, rfl⟩
  case sample => exact ⟨rfl, rfl⟩
  case wait => exact ⟨rfl, rfl⟩

/-- A target's port follows the events that reach it. -/
theorem Target.after_port (g : Target) (events : List Event) :
    (g.after events).port = (events.filter (Event.reaches g.trstWired)).foldl Port.see g.port := by
  induction events generalizing g with
  | nil => rfl
  | cons e rest ih =>
    obtain ⟨hwired, hport⟩ := g.see_port e
    have hrest : (g.after (e :: rest)).port = ((g.see e).after rest).port := rfl
    rw [hrest, ih, hwired, hport, List.filter_cons]
    split <;> rfl

theorem filter_reaches_walkEvents (trstWired : Bool) (walk : List Level) :
    (walkEvents walk).filter (Event.reaches trstWired) = walkEvents walk := by
  induction walk with
  | nil => rfl
  | cons tms rest ih => rw [walkEvents, List.flatMap_cons, List.filter_append, ← walkEvents, ih]; rfl

/-! ### CONNECT at a target (R122) -/

/-- The idle pattern, whether its write of `trst` reaches the port or `trst` is held released: the machine at the port
stays where it was (R121, first lines). -/
theorem Port.foldl_idle_reaching (trstWired : Bool) {p : Port} (h : trstWired = false → p.out.trst = true) :
    ([.set .clock false, .set .mode true, .set .dataIn false, .set .resetRequest true, .set .trst true,
        .wait .settle].filter (Event.reaches trstWired)).foldl Port.see p = { out := Latches.idle, tap := p.tap } := by
  cases trstWired
  case false => simp [List.filter_cons, Event.reaches, Port.see, Port.tapAfter, Latches.idle, h]
  case true => simp [List.filter_cons, Event.reaches, Port.see, Port.tapAfter, Latches.idle]

/-- The reset pulse at an idle port in TestLogicReset leaves both as they were, whether it reaches the port or not
(R121). -/
theorem Port.foldl_resetPulse_reaching (trstWired : Bool) :
    ([.set .trst false, .set .resetRequest false, .wait .reset, .set .trst true, .set .resetRequest true,
        .wait .reset].filter (Event.reaches trstWired)).foldl Port.see { out := Latches.idle, tap := .TestLogicReset } =
      { out := Latches.idle, tap := .TestLogicReset } := by
  cases trstWired <;> rfl

/-- After CONNECT a target's port is idle and in SelectDRScan: the first five clocks bring it to TestLogicReset from
anywhere, the reset pulse leaves it there, and the rest of the walk leads to SelectDRScan (R122). -/
theorem Target.after_connectEvents_port (g : Target) (h : g.trstWired = false → g.port.out.trst = true) :
    (g.after connectEvents).port = { out := Latches.idle, tap := .SelectDRScan } := by
  rw [Target.after_port, connectEvents]
  simp only [List.filter_append, List.foldl_append, filter_reaches_walkEvents]
  rw [Port.foldl_idle_reaching _ h, Port.foldl_walkEvents_idle rfl]
  simp only [List.foldl_cons, List.foldl_nil, tapNext_five]
  rw [Port.foldl_resetPulse_reaching, Port.foldl_walkEvents_idle rfl]
  rfl

end Sys2Proof.Machine
end

section
/-! SUPPORT. The commands that need the home state: refused, or from home to home (spec 41_tap_state_machine.md R114,
R115). -/

namespace Sys2Proof.Machine

/-! ### Their refusals are refusals (R170) -/

theorem linkRefusal_isRefusal {s : State} {e : Status} (h : linkRefusal s = some e) : e.isRefusal = true := by
  unfold linkRefusal at h
  split at h <;> cases h <;> rfl

theorem widthRefusal_isRefusal {W : Nat} {e : Status} (h : widthRefusal W = some e) : e.isRefusal = true := by
  unfold widthRefusal at h
  split at h <;> cases h
  rfl

theorem homeRefusal_isRefusal {s : State} {e : Status} (h : homeRefusal s = some e) : e.isRefusal = true := by
  unfold homeRefusal at h
  split at h <;> cases h
  rfl

theorem fitRefusal_isRefusal {len P W : Nat} {e : Status} (h : fitRefusal len P W = some e) : e.isRefusal = true := by
  unfold fitRefusal at h
  split at h <;> cases h
  rfl

theorem shiftRefusal_isRefusal {len P W : Nat} {s : State} {e : Status} (h : shiftRefusal len P W s = some e) :
    e.isRefusal = true := by
  simp only [shiftRefusal, Option.or_eq_some_iff] at h
  obtain hlink | ⟨-, hwidth | ⟨-, hhome | ⟨-, hfit⟩⟩⟩ := h
  · exact linkRefusal_isRefusal hlink
  · exact widthRefusal_isRefusal hwidth
  · exact homeRefusal_isRefusal hhome
  · exact fitRefusal_isRefusal hfit

theorem measureRefusal_isRefusal {s : State} {e : Status} (h : measureRefusal s = some e) : e.isRefusal = true := by
  simp only [measureRefusal, Option.or_eq_some_iff] at h
  obtain hlink | ⟨-, hhome⟩ := h
  · exact linkRefusal_isRefusal hlink
  · exact homeRefusal_isRefusal hhome

/-! ### Refused or run -/

section Run
variable {width : BitVec 6} {value : Word} {s : State} {e : Status}

theorem exec_shiftIr_refused (h : shiftRefusal s.lenI s.params.irOffset width.toNat s = some e) :
    exec (.shiftIr width value) s = .next (raise e s) := by
  simp only [exec, execShiftIr, h]

theorem exec_shiftIr_accepted (h : shiftRefusal s.lenI s.params.irOffset width.toNat s = none) :
    exec (.shiftIr width value) s = .next
      (respond .OK (instructionShift width.toNat value s).1 0 (instructionShift width.toNat value s).2) := by
  simp only [exec, execShiftIr, h]

theorem exec_shiftDr_refused (h : shiftRefusal s.lenD s.params.drOffset width.toNat s = some e) :
    exec (.shiftDr width value) s = .next (raise e s) := by
  simp only [exec, execShiftDr, h]

theorem exec_shiftDr_accepted (h : shiftRefusal s.lenD s.params.drOffset width.toNat s = none) :
    exec (.shiftDr width value) s = .next
      (respond .OK (dataShift width.toNat value s).1 0 (dataShift width.toNat value s).2) := by
  simp only [exec, execShiftDr, h]

theorem exec_execInReset_refused (h : shiftRefusal s.lenI s.params.irOffset width.toNat s = some e) :
    exec (.execInReset width value) s = .next (raise e s) := by
  simp only [exec, execExecInReset, h]

/-- An accepted EXEC_IN_RESET is an instruction shift between the assertion and the release of the line (R147). -/
theorem exec_execInReset_accepted (h : shiftRefusal s.lenI s.params.irOffset width.toNat s = none) :
    exec (.execInReset width value) s = .next
      (respond .OK (instructionShift width.toNat value (wait .reset (setSignal .resetRequest false s))).1 0
        (setSignal .resetRequest true
          (instructionShift width.toNat value (wait .reset (setSignal .resetRequest false s))).2)) := by
  simp only [exec, execExecInReset, h]

theorem exec_measure_refused (h : measureRefusal s = some e) : exec .measure s = .next (raise e s) := by
  simp only [exec, execMeasure, h]

theorem exec_measure_accepted (h : measureRefusal s = none) :
    exec .measure s = .next (recordLengths (probeBoth s).1 (probeBoth s).2) := by
  simp only [exec, execMeasure, h]

end Run

/-! ### From home to home -/

section Home
variable {s : State}

@[simp] theorem home_respond (e : Status) (a b : Word) : home (respond e a b s) = home s := rfl

@[simp] theorem home_recordLengths (r : Option Nat × Option Nat) : home (recordLengths r s) = home s := by
  rcases r with ⟨_ | m, _ | n⟩ <;> rfl

/-- Neither a write of reset-request nor a wait leaves the home state (R114). -/
theorem home_resetRequest (v : Level) : home (setSignal .resetRequest v s) = home s := rfl

theorem home_wait (t : Duration) : home (wait t s) = home s := rfl

/-- A move from home to SelectDRScan that leaves `clock` and `trst` as they were ends at home (R114). -/
theorem home_moved {o : Latches} (events : List Event) (n : Nat) (hh : home s = true) (hc : o.clock = s.out.clock)
    (ht : o.trst = s.out.trst) : home (moved o .SelectDRScan events n s) = true := by
  obtain ⟨hlink, -, hclock, htrst⟩ := (home_iff s).mp hh
  exact (home_iff _).mpr ⟨hlink, rfl, hc.trans hclock, ht.trans htrst⟩

section Shifts
variable {W : Nat} (v : Word) (hh : home s = true) (hW : 1 ≤ W) (hW32 : W ≤ 32)
include hh hW hW32

theorem home_instructionShift (hfit : s.lenI = 0 ∨ s.params.irOffset + W ≤ s.lenI) :
    home (instructionShift W v s).2 = true := by
  obtain ⟨-, htap, hc, ht⟩ := (home_iff s).mp hh
  rw [instructionShift_eq W v s hW hW32 hfit hc ht htap]
  exact home_moved _ _ hh rfl rfl

theorem home_dataShift (hfit : s.lenD = 0 ∨ s.params.drOffset + W ≤ s.lenD) : home (dataShift W v s).2 = true := by
  obtain ⟨-, htap, hc, ht⟩ := (home_iff s).mp hh
  rw [dataShift_eq W v s hW hW32 hfit hc ht htap]
  exact home_moved _ _ hh rfl rfl

end Shifts

theorem home_probeBoth (hp : s.params.wf) (hh : home s = true) : home (probeBoth s).2 = true := by
  rw [probeBoth_eq s hp hh]
  exact home_moved _ _ hh rfl rfl

/-- Away from home a command that needs it is refused with NotHome, if its operands are legal (R115, R176). -/
theorem exec_away {i : Instr} (hi : i.needsHome = true) (hlink : s.link = .Open) (hwf : i.wellFormed = true)
    (hh : home s = false) : exec i s = .next (raise .NotHome s) := by
  have legal : ∀ width, legalWidth width = true → 1 ≤ width.toNat ∧ width.toNat ≤ 32 := fun _ => of_decide_eq_true
  cases i with
  | openLink | closeLink | setsig | rdtdo | connect => exact absurd hi Bool.false_ne_true
  | shiftIr width value =>
    obtain ⟨hW, hW32⟩ := legal width hwf
    exact exec_shiftIr_refused (shiftRefusal_away hlink hW hW32 hh)
  | shiftDr width value =>
    obtain ⟨hW, hW32⟩ := legal width hwf
    exact exec_shiftDr_refused (shiftRefusal_away hlink hW hW32 hh)
  | measure => exact exec_measure_refused (measureRefusal_away hlink hh)
  | execInReset width value =>
    obtain ⟨hW, hW32⟩ := legal width hwf
    exact exec_execInReset_refused (shiftRefusal_away hlink hW hW32 hh)

/-- The command `i` is refused in `s`, or it starts at home and ends at home. -/
def RefusedOrHome (i : Instr) (s : State) : Prop :=
  (∃ e, exec i s = .next (raise e s) ∧ e.isRefusal = true)
    ∨ (home s = true ∧ ∃ t, exec i s = .next t ∧ home t = true)

/-- A shift whose body leads from home to home does so as a command, or is refused (R145 to R147). -/
theorem refusedOrHome_of_shift {i : Instr} {len P W : Nat} {r : Word} {u : State}
    (hrefused : ∀ {e}, shiftRefusal len P W s = some e → exec i s = .next (raise e s))
    (haccepted : shiftRefusal len P W s = none → exec i s = .next (respond .OK r 0 u))
    (hbody : home s = true → 1 ≤ W → W ≤ 32 → (len = 0 ∨ P + W ≤ len) → home u = true) : RefusedOrHome i s := by
  cases href : shiftRefusal len P W s with
  | some e => exact .inl ⟨e, hrefused href, shiftRefusal_isRefusal href⟩
  | none =>
    obtain ⟨hh, hW, hW32, hfit⟩ := shiftRefusal_eq_none href
    exact .inr ⟨hh, _, haccepted href, by rw [home_respond, hbody hh hW hW32 hfit]⟩

theorem refusedOrHome_measure (hp : s.params.wf) : RefusedOrHome .measure s := by
  cases href : measureRefusal s with
  | some e => exact .inl ⟨e, exec_measure_refused href, measureRefusal_isRefusal href⟩
  | none =>
    have hh := measureRefusal_eq_none href
    exact .inr ⟨hh, _, exec_measure_accepted href, by rw [home_recordLengths, home_probeBoth hp hh]⟩

theorem refusedOrHome_execInReset (width : BitVec 6) (value : Word) : RefusedOrHome (.execInReset width value) s := by
  refine refusedOrHome_of_shift exec_execInReset_refused exec_execInReset_accepted fun hh hW hW32 hfit => ?_
  have hasserted : home (wait .reset (setSignal .resetRequest false s)) = true := by
    rw [home_wait, home_resetRequest, hh]
  rw [home_resetRequest]
  exact home_instructionShift value hasserted hW hW32 hfit

/-- A command that needs the home state is refused, or it starts there and ends there (R115). -/
theorem refusedOrHome {i : Instr} (hi : i.needsHome = true) (hp : s.params.wf) : RefusedOrHome i s := by
  cases i with
  | openLink | closeLink | setsig | rdtdo | connect => exact absurd hi Bool.false_ne_true
  | shiftIr width value =>
    exact refusedOrHome_of_shift exec_shiftIr_refused exec_shiftIr_accepted (home_instructionShift value)
  | shiftDr width value =>
    exact refusedOrHome_of_shift exec_shiftDr_refused exec_shiftDr_accepted (home_dataShift value)
  | measure => exact refusedOrHome_measure hp
  | execInReset width value => exact refusedOrHome_execInReset width value

end Home

end Sys2Proof.Machine
end

section
/-! PROOFS. The statements of 41_tap_state_machine.md: the transitions (R111), cycles by hand (R112, R113), the home-state
contract (R115), CONNECT (R121, R122). -/

namespace Sys2Proof.Machine

/-- Settles O22: with the link open CONNECT is one move, whose events are those of R121 in order. -/
theorem connectReachesHome : Obligations.ConnectReachesHome := by
  refine ⟨by decide, linkStops Instr.noConfusion Instr.noConfusion, fun s hlink => ?_⟩
  rw [exec_connect_open hlink, moved, consume_zero]
  rfl

/-- Settles O23: the events of CONNECT leave any target's port idle and in SelectDRScan, as they leave TAPENG. -/
theorem connectBringsTheTargetTogether : Obligations.ConnectBringsTheTargetTogether := by
  intro s g hlink htrst
  refine ⟨_, connectEvents, exec_connect_open hlink, rfl, ?_, rfl⟩
  rw [Target.together, g.after_connectEvents_port htrst]
  exact beq_self_eq_true _

/-- Settles O24: away from home the refusal is NotHome; a command whose response is no refusal was not refused, so it ran
from home to home. -/
theorem homeStateContract : Obligations.HomeStateContract := by
  refine fun i s hi => ⟨fun hlink hwf hh => exec_away hi hlink hwf hh, fun hp t r hexec hresponse hr => ?_⟩
  obtain ⟨e, hraise, he⟩ | ⟨hh, u, hrun, hu⟩ := refusedOrHome hi hp
  · rw [hraise] at hexec
    cases hexec
    cases hresponse
    exact absurd (he.symm.trans hr) Bool.noConfusion
  · rw [hrun] at hexec
    cases hexec
    exact ⟨hh, hu⟩

/-- Settles O18: each of the fifteen entries is the transition function's, and the edge takes it. -/
theorem sourceTransitionsOfTheStateMachine : Obligations.SourceTransitionsOfTheStateMachine := by
  intro e he
  have hentry : tapNext e.1 e.2.1 = e.2.2 := by
    revert e
    decide
  intro s hlink hc ht htap hmode
  obtain ⟨t, hexec, hmoved⟩ := exec_setsig_clock_rises hlink hc ht
  exact ⟨t, hexec, by rw [hmoved, htap, hmode, hentry]⟩

/-- Settles O20: the three commands are one move, and it takes no sample. -/
theorem handMadeClockCycle : Obligations.HandMadeClockCycle := by
  intro s m hlink hc ht
  have hcycle := execAll_handCycle m hlink hc ht
  rwa [moved, consume_zero] at hcycle

/-- Settles O21: five cycles by hand are five transitions with `mode` high; the six states are found by cases. -/
theorem fiveEdgesReachTestLogicReset : Obligations.FiveEdgesReachTestLogicReset := by
  refine ⟨fun s hlink hc ht => ?_, fun x => by cases x <;> decide⟩
  obtain ⟨t, hexec, htap⟩ := execAll_handCycles_high 5 hlink hc ht
  exact ⟨t, hexec, htap.trans (tapNext_five s.tap)⟩

end Sys2Proof.Machine
end

section
/-! SUPPORT. The shift commands, each with its refusals in order and, once accepted, as one move and one response (spec
42_shift_ops.md R145 to R147). -/

namespace Sys2Proof.Machine

/-! ### Refused -/

/-- With any part of the home condition on the pins missing, a state is away from home (R114). -/
theorem home_eq_false {s : State} (h : ¬(s.tap = .SelectDRScan ∧ s.out.clock = false ∧ s.out.trst = true)) :
    home s = false := by
  rw [← Bool.not_eq_true, home_iff]
  exact fun ⟨_, hpins⟩ => h hpins

/-- A command that answers what `shiftRefusal` says is refused in its order: link, width, home, fit (R176). -/
theorem shiftStops {i : Instr} {W : Nat} {P len : State → Nat}
    (hrefused : ∀ {s e}, shiftRefusal (len s) (P s) W s = some e → exec i s = .next (raise e s)) :
    ShiftStops i W P len := by
  refine ⟨fun s => ⟨fun hlink => ?_, fun hlink => ?_⟩, fun s hlink => ⟨fun hW => ?_, fun hW hW32 haway => ?_,
    fun hW hW32 htap hc ht hlen hfit => ?_⟩⟩
  · exact hrefused (shiftRefusal_link (linkRefusal_failed hlink))
  · exact hrefused (shiftRefusal_link (linkRefusal_closed hlink))
  · exact hrefused (shiftRefusal_width hlink hW)
  · exact hrefused (shiftRefusal_away hlink hW hW32 (home_eq_false haway))
  · exact hrefused (shiftRefusal_tooWide hW hW32 ((home_iff s).mpr ⟨hlink, htap, hc, ht⟩) hlen hfit)

/-! ### Accepted -/

section Accepted
variable {s : State} {width : BitVec 6} (value : Word) (hh : home s = true)
  (hW : 1 ≤ width.toNat) (hW32 : width.toNat ≤ 32)
include hh hW hW32

/-- SHIFT_IR from home on a path it fits in (R145). -/
theorem exec_shiftIr_home (hfit : s.lenI = 0 ∨ s.params.irOffset + width.toNat ≤ s.lenI) :
    let W := width.toNat
    let P := s.params.irOffset
    let L := pathLen s.lenI P W
    exec (.shiftIr width value) s = .next
      (respond .OK (wordOf ((answersOf s (L - P)).drop (L - P - W))) 0
        (moved { s.out with mode := true, dataIn := lastDriven value W P } .SelectDRScan
          (shiftTrace [true, false, false] value W P L (answersOf s (L - P))) (L - P) s)) := by
  intro W P L
  obtain ⟨-, htap, hc, ht⟩ := (home_iff s).mp hh
  rw [exec_shiftIr_accepted (shiftRefusal_none hW hW32 hh hfit), instructionShift_eq W value s hW hW32 hfit hc ht htap]

/-- SHIFT_DR from home on a path it fits in (R146). -/
theorem exec_shiftDr_home (hfit : s.lenD = 0 ∨ s.params.drOffset + width.toNat ≤ s.lenD) :
    let W := width.toNat
    let P := s.params.drOffset
    let L := pathLen s.lenD P W
    exec (.shiftDr width value) s = .next
      (respond .OK (wordOf ((answersOf s (L - P)).drop (L - P - W))) 0
        (moved { s.out with mode := true, dataIn := lastDriven value W P } .SelectDRScan
          (shiftTrace [false, false] value W P L (answersOf s (L - P))) (L - P) s)) := by
  intro W P L
  obtain ⟨-, htap, hc, ht⟩ := (home_iff s).mp hh
  rw [exec_shiftDr_accepted (shiftRefusal_none hW hW32 hh hfit), dataShift_eq W value s hW hW32 hfit hc ht htap]

/-- EXEC_IN_RESET from home on a path it fits in: the shift of SHIFT_IR between two writes of reset-request (R147). -/
theorem exec_execInReset_home (hfit : s.lenI = 0 ∨ s.params.irOffset + width.toNat ≤ s.lenI) :
    let W := width.toNat
    let P := s.params.irOffset
    let L := pathLen s.lenI P W
    exec (.execInReset width value) s = .next
      (respond .OK (wordOf ((answersOf s (L - P)).drop (L - P - W))) 0
        (moved { s.out with mode := true, resetRequest := true, dataIn := lastDriven value W P } .SelectDRScan
          ([.set .resetRequest false, .wait .reset]
            ++ shiftTrace [true, false, false] value W P L (answersOf s (L - P)) ++ [.set .resetRequest true])
          (L - P) s)) := by
  intro W P L
  obtain ⟨-, htap, hc, ht⟩ := (home_iff s).mp hh
  have hasserted : wait .reset (setSignal .resetRequest false s) =
      moved { s.out with resetRequest := false } s.tap [.set .resetRequest false, .wait .reset] 0 s := by
    rw [wait_eq, setSignal_eq]
    simp [tapAfter]
  rw [exec_execInReset_accepted (shiftRefusal_none hW hW32 hh hfit),
    instructionShift_eq W value (wait .reset (setSignal .resetRequest false s)) hW hW32 hfit hc ht htap, hasserted,
    setSignal_eq]
  simp [tapAfter, answersOf_moved, W, P, L]

end Accepted

end Sys2Proof.Machine
end

section
/-! SUPPORT. The events of a scan cycle by cycle, and the pulses and samples of a shift (spec 42_shift_ops.md R141, R148,
R149). -/

namespace Sys2Proof.Machine

/-! ### A scan as a list of cycles -/

@[simp] theorem scanEvents_nil (sampled : List Level) : scanEvents [] sampled = [] := rfl

/-- The first cycle of a scan drives the first bit and takes the first sample; `mode` is high in it when it is the last
cycle (R141). -/
theorem scanEvents_cons (d : Level) (driven sampled : List Level) :
    scanEvents (d :: driven) sampled =
      shiftEvents driven.isEmpty d sampled.head? ++ scanEvents driven sampled.tail := by
  simp only [scanEvents, List.length_cons, List.range_succ_eq_map, List.flatMap_cons, List.flatMap_map]
  congr 1
  · cases driven <;> simp [List.head?_eq_getElem?]
  · refine List.flatMap_congr fun i _ => ?_
    simp

/-! ### Clock pulses (R148) -/

theorem clockPulses_append (a b : List Event) : clockPulses (a ++ b) = clockPulses a + clockPulses b := List.count_append

theorem clockPulses_shiftEvents (tms tdi : Level) (b : Option Level) : clockPulses (shiftEvents tms tdi b) = 1 := by
  cases b <;> rfl

theorem clockPulses_walkEvents (walk : List Level) : clockPulses (walkEvents walk) = walk.length := by
  induction walk with
  | nil => rfl
  | cons tms rest ih =>
    have hcycle : clockPulses (navEvents tms) = 1 := rfl
    rw [walkEvents, List.flatMap_cons, ← walkEvents, clockPulses_append, hcycle, ih, List.length_cons, Nat.add_comm]

theorem clockPulses_scanEvents (driven sampled : List Level) : clockPulses (scanEvents driven sampled) = driven.length := by
  induction driven generalizing sampled with
  | nil => rfl
  | cons d rest ih =>
    rw [scanEvents_cons, clockPulses_append, clockPulses_shiftEvents, ih, List.length_cons, Nat.add_comm]

/-- A shift pulses the clock once for each cycle of its walk in and of its scan, and twice on the way home (R148). -/
theorem clockPulses_shiftTrace (walk : List Level) (v : Word) {W P L : Nat} (hL : P + W ≤ L) (sampled : List Level) :
    clockPulses (shiftTrace walk v W P L sampled) = L + walk.length + 2 := by
  rw [shiftTrace, clockPulses_append, clockPulses_append, clockPulses_walkEvents, clockPulses_walkEvents,
    clockPulses_scanEvents, drivenBits_length v hL, Nat.add_comm L, List.length_cons, List.length_singleton]

/-! ### Samples (R149) -/

theorem sampledLevels_shiftEvents (tms tdi : Level) (b : Option Level) :
    sampledLevels (shiftEvents tms tdi b) = b.toList := by
  cases b <;> rfl

theorem sampledLevels_walkEvents (walk : List Level) : sampledLevels (walkEvents walk) = [] := by
  induction walk with
  | nil => rfl
  | cons tms rest ih => rw [walkEvents, List.flatMap_cons, ← walkEvents, sampledLevels_append, ih]; rfl

/-- A scan takes its samples in order, as far as it has cycles for them. -/
theorem sampledLevels_scanEvents (driven sampled : List Level) :
    sampledLevels (scanEvents driven sampled) = sampled.take driven.length := by
  induction driven generalizing sampled with
  | nil => rfl
  | cons d rest ih =>
    rw [scanEvents_cons, sampledLevels_append, sampledLevels_shiftEvents, ih]
    cases sampled <;> simp

/-- A shift takes the samples it is given, in order (R149). -/
theorem sampledLevels_shiftTrace (walk : List Level) (v : Word) {W P L : Nat} (hL : P + W ≤ L) {sampled : List Level}
    (hsampled : sampled.length ≤ L) : sampledLevels (shiftTrace walk v W P L sampled) = sampled := by
  simp only [shiftTrace, sampledLevels_append, sampledLevels_walkEvents, sampledLevels_scanEvents, drivenBits_length v hL,
    List.take_of_length_le hsampled, List.nil_append, List.append_nil]

/-! ### Around the shift of EXEC_IN_RESET (R147): no pulse and no sample -/

theorem clockPulses_underReset (events : List Event) :
    clockPulses ([.set .resetRequest false, .wait .reset] ++ events ++ [.set .resetRequest true]) =
      clockPulses events := by
  simp [clockPulses]

theorem sampledLevels_underReset (events : List Event) :
    sampledLevels ([.set .resetRequest false, .wait .reset] ++ events ++ [.set .resetRequest true]) =
      sampledLevels events := by
  simp [sampledLevels]

end Sys2Proof.Machine
end

section
/-! SUPPORT. A shift seen by a target with a reference path: each clock cycle is one transition, the walk captures the
path, and the scan moves what it drives in and what was captured out (spec 20_memory.md R51, 42_shift_ops.md R151). The
target is the assumption of log 15. -/

namespace Sys2Proof.Machine

/-! ### One path or the other -/

/-- The two scan paths of a target (R51). -/
inductive ScanPath where
  | instruction
  | data

namespace ScanPath

/-- The path that is not this one. -/
@[simp] def other : ScanPath → ScanPath
  | .instruction => .data
  | .data => .instruction

/-- The state whose entry loads the path. -/
@[simp] def captureTap : ScanPath → Tap
  | .instruction => .CaptureIR
  | .data => .CaptureDR

/-- The state in which a clock edge shifts the path. -/
@[simp] def shiftTap : ScanPath → Tap
  | .instruction => .ShiftIR
  | .data => .ShiftDR

/-- The state a scan of the path ends in. -/
@[simp] def exitTap : ScanPath → Tap
  | .instruction => .Exit1IR
  | .data => .Exit1DR

/-- The walk from SelectDRScan to the path's Shift state (R120). -/
@[simp] def walk : ScanPath → List Level
  | .instruction => [true, false, false]
  | .data => [false, false]

end ScanPath

/-- The stages of a path, stage 0 first. -/
def Target.stages (g : Target) : ScanPath → List Level
  | .instruction => g.irStages
  | .data => g.drStages

/-- What the next Capture loads into a path. -/
def Target.capture (g : Target) : ScanPath → List Level
  | .instruction => g.irCapture
  | .data => g.drCapture

/-! ### A clock cycle at a target -/

/-- The clock is low and `trst` is high: the next clock cycle is one transition of the machine (R25, R26). -/
def Port.running (p : Port) : Prop := p.out.clock = false ∧ p.out.trst = true

/-- A clock cycle with `mode` at `tms` and data-in at `tdi`, at a target whose machine runs. -/
def Target.cycle (g : Target) (tms tdi : Level) : Target :=
  { Target.clocked { g with port := { g.port with out := { g.port.out with dataIn := tdi } } } (tapNext g.port.tap tms) with
    port := { out := { g.port.out with dataIn := tdi, mode := tms }, tap := tapNext g.port.tap tms } }

section Cycle
variable {g : Target}

theorem Target.cycle_running (hrun : g.port.running) (tms tdi : Level) : (g.cycle tms tdi).port.running := hrun

@[simp] theorem Target.cycle_tap (tms tdi : Level) : (g.cycle tms tdi).port.tap = tapNext g.port.tap tms := rfl

@[simp] theorem Target.cycle_capture (tms tdi : Level) (p : ScanPath) : (g.cycle tms tdi).capture p = g.capture p := by
  cases p <;> rfl

/-- A path is loaded on the way into its Capture state, shifted from its Shift state and otherwise left alone (R51). -/
theorem Target.cycle_stages (tms tdi : Level) (p : ScanPath) :
    (g.cycle tms tdi).stages p =
      if tapNext g.port.tap tms = p.captureTap then g.capture p
      else if g.port.tap = p.shiftTap then shiftStages (g.stages p) tdi else g.stages p := by
  cases p <;> rfl

theorem Target.after_append (a b : List Event) : g.after (a ++ b) = (g.after a).after b := List.foldl_append

theorem Target.answers_append (a b : List Event) : g.answers (a ++ b) = (g.answers a && (g.after a).answers b) := by
  induction a generalizing g with
  | nil => rfl
  | cons e rest ih =>
    cases e with
    | set sig v => exact ih
    | sample v => exact (congrArg _ ih).trans (Bool.and_assoc ..).symm
    | wait t => exact ih

theorem Target.after_shiftEvents (hrun : g.port.running) (tms tdi : Level) (b : Option Level) :
    g.after (shiftEvents tms tdi b) = g.cycle tms tdi := by
  obtain ⟨hc, ht⟩ := hrun
  cases b <;>
    simp [Target.after, shiftEvents, sampleEvents, pulseEvents, Target.see, Target.cycle, Target.clocked, Port.see,
      Port.tapAfter, hc, ht]

theorem Target.after_navEvents (hrun : g.port.running) (tms : Level) :
    g.after (navEvents tms) = g.cycle tms g.port.out.dataIn := by
  obtain ⟨hc, ht⟩ := hrun
  simp [Target.after, navEvents, pulseEvents, Target.see, Target.cycle, Target.clocked, Port.see, Port.tapAfter, hc, ht]

theorem Target.after_walkEvents (hrun : g.port.running) (walk : List Level) :
    g.after (walkEvents walk) = walk.foldl (fun h tms => h.cycle tms h.port.out.dataIn) g := by
  induction walk generalizing g with
  | nil => rfl
  | cons tms rest ih =>
    rw [walkEvents, List.flatMap_cons, ← walkEvents, Target.after_append, Target.after_navEvents hrun,
      ih (g.cycle_running hrun tms _), List.foldl_cons]

/-- The sample of a cycle is answered by the path as it stands before the cycle's edge (R51, R117). -/
theorem Target.mayAnswer_of_shiftEvents {tms tdi b : Level} (h : g.answers (shiftEvents tms tdi (some b)) = true) :
    g.mayAnswer b = true := by
  have hsplit : g.answers (shiftEvents tms tdi (some b)) = (g.mayAnswer b && _) := rfl
  obtain ⟨hanswer, -⟩ := Bool.and_eq_true_iff.mp (hsplit ▸ h)
  exact hanswer

/-- In a Shift state a target answers its path's stage 0 (R51). -/
theorem Target.head_of_mayAnswer {p : ScanPath} {b c : Level} {rest : List Level} (htap : g.port.tap = p.shiftTap)
    (hstages : g.stages p = c :: rest) (h : g.mayAnswer b = true) : b = c := by
  have hout : g.dataOut = some c := by
    cases p <;> simp_all [Target.dataOut, Target.stages]
  simp only [Target.mayAnswer, hout, beq_iff_eq] at h
  exact h.symm

end Cycle

/-! ### Walks and scans at a target -/

section Shift
variable {g : Target} (p : ScanPath)

/-- The walk in captures its own path and leaves the other as it was (R120, R51). -/
theorem Target.after_walkIn (hrun : g.port.running) (htap : g.port.tap = .SelectDRScan) :
    (g.after (walkEvents p.walk)).port.running
      ∧ (g.after (walkEvents p.walk)).port.tap = p.shiftTap
      ∧ (g.after (walkEvents p.walk)).stages p = g.capture p
      ∧ (g.after (walkEvents p.walk)).stages p.other = g.stages p.other := by
  rw [Target.after_walkEvents hrun]
  refine ⟨?_, ?_, ?_, ?_⟩
  · cases p <;> exact hrun
  · cases p <;> simp [tapNext, htap]
  · cases p <;> simp [Target.cycle_stages, tapNext, htap]
  · cases p <;> simp [Target.cycle_stages, tapNext, htap]

/-- The walk home moves neither path (R120). -/
theorem Target.after_walkHome (hrun : g.port.running) (htap : g.port.tap = p.exitTap) (q : ScanPath) :
    (g.after (walkEvents [true, true])).stages q = g.stages q := by
  rw [Target.after_walkEvents hrun]
  cases p <;> cases q <;> simp [Target.cycle_stages, tapNext, htap]

/-- A cycle in a path's Shift state shifts that path alone; the machine leaves the state when `mode` is high (R110, R51). -/
theorem Target.cycle_shift (htap : g.port.tap = p.shiftTap) (tms tdi : Level) :
    (g.cycle tms tdi).port.tap = (if tms then p.exitTap else p.shiftTap)
      ∧ (g.cycle tms tdi).stages p = shiftStages (g.stages p) tdi
      ∧ (g.cycle tms tdi).stages p.other = g.stages p.other := by
  cases p <;> cases tms <;> simp [Target.cycle_stages, htap, tapNext]

/-- A scan from a Shift state shifts in what it drives, one bit a cycle, leaves the other path as it was and ends in the
path's Exit1 state (R141, R51). -/
theorem Target.after_scanEvents {driven : List Level} (hne : driven ≠ []) (sampled : List Level) (hrun : g.port.running)
    (htap : g.port.tap = p.shiftTap) :
    (g.after (scanEvents driven sampled)).port.running
      ∧ (g.after (scanEvents driven sampled)).port.tap = p.exitTap
      ∧ (g.after (scanEvents driven sampled)).stages p = driven.foldl shiftStages (g.stages p)
      ∧ (g.after (scanEvents driven sampled)).stages p.other = g.stages p.other := by
  induction driven generalizing g sampled with
  | nil => exact absurd rfl hne
  | cons d rest ih =>
    rw [scanEvents_cons, Target.after_append, Target.after_shiftEvents hrun, List.foldl_cons]
    obtain ⟨hnext, hown, hother⟩ := g.cycle_shift p htap rest.isEmpty d
    rcases rest with _ | ⟨e, rest⟩
    · exact ⟨hrun, hnext, hown, hother⟩
    · rw [← hown, ← hother]
      exact ih (List.cons_ne_nil e rest) sampled.tail (g.cycle_running hrun _ d) hnext

/-- On a path at least as long as the scan, what a target that answers every sample lets out is what the path held
(R151). -/
theorem Target.sampled_of_answers {driven sampled : List Level} (hrun : g.port.running) (htap : g.port.tap = p.shiftTap)
    (hsampled : sampled.length ≤ driven.length) (hstages : driven.length ≤ (g.stages p).length)
    (hanswers : g.answers (scanEvents driven sampled) = true) : sampled = (g.stages p).take sampled.length := by
  induction driven generalizing g sampled with
  | nil => rw [List.length_eq_zero_iff.mp (Nat.le_zero.mp hsampled), List.length_nil, List.take_zero]
  | cons d rest ih =>
    rcases sampled with _ | ⟨b, sampled⟩
    · rfl
    rw [List.length_cons] at hsampled hstages
    obtain ⟨c, stages, hcons⟩ := List.exists_cons_of_length_pos (Nat.lt_of_lt_of_le (Nat.succ_pos _) hstages)
    rw [scanEvents_cons, Target.answers_append, Bool.and_eq_true_iff, Target.after_shiftEvents hrun] at hanswers
    obtain ⟨hfirst, hlater⟩ := hanswers
    have hb : b = c := Target.head_of_mayAnswer htap hcons (Target.mayAnswer_of_shiftEvents hfirst)
    rcases rest with _ | ⟨e, rest⟩
    · rw [List.length_eq_zero_iff.mp (Nat.le_zero.mp (Nat.le_of_succ_le_succ hsampled)), hb, hcons]
      rfl
    · obtain ⟨hnext, hown, -⟩ := g.cycle_shift p htap false d
      rw [hcons, shiftStages] at hown
      have hlonger : (e :: rest).length ≤ stages.length := by
        rw [hcons] at hstages
        exact Nat.le_of_succ_le_succ hstages
      have hshorter : sampled.length ≤ stages.length := (Nat.le_of_succ_le_succ hsampled).trans hlonger
      have htail : sampled = ((g.cycle false d).stages p).take sampled.length :=
        ih (g.cycle_running hrun false d) hnext (Nat.le_of_succ_le_succ hsampled)
          (by rw [hown, List.length_append]; exact hlonger.trans (Nat.le_add_right ..)) hlater
      rw [hown, List.take_append_of_le_length hshorter] at htail
      rw [hcons, hb, List.length_cons, List.take_succ_cons, ← htail]

/-- Bits shifted through a path of at least as many stages stand at its far end, in order (R51). -/
theorem foldl_shiftStages {driven stages : List Level} (h : driven.length ≤ stages.length) :
    driven.foldl shiftStages stages = stages.drop driven.length ++ driven := by
  induction driven generalizing stages with
  | nil => simp
  | cons d rest ih =>
    obtain ⟨c, stages, rfl⟩ := List.exists_cons_of_length_pos (Nat.lt_of_lt_of_le (Nat.succ_pos _) h)
    have hrest : rest.length ≤ stages.length := Nat.le_of_succ_le_succ h
    rw [List.foldl_cons, shiftStages, ih (by rw [List.length_append]; exact hrest.trans (Nat.le_add_right ..)),
      List.length_cons, List.drop_succ_cons, List.drop_append_of_le_length hrest, List.append_assoc, List.singleton_append]

/-- A shift at a target whose path holds exactly the scan: the path ends with the driven bits, the other path is as it
was, and the kept samples are what Capture had loaded into the window (R151). -/
theorem Target.shift_on_path {v : Word} {W P L : Nat} {sampled : List Level} (hrun : g.port.running)
    (htap : g.port.tap = .SelectDRScan) (hW : 1 ≤ W) (hL : P + W ≤ L) (hcapture : (g.capture p).length = L)
    (hsampled : sampled.length = L - P) (hanswers : g.answers (shiftTrace p.walk v W P L sampled) = true) :
    (g.after (shiftTrace p.walk v W P L sampled)).stages p = drivenBits v W P L
      ∧ (g.after (shiftTrace p.walk v W P L sampled)).stages p.other = g.stages p.other
      ∧ sampled.drop (L - P - W) = ((g.capture p).drop (L - P - W)).take W := by
  have hdriven := drivenBits_length v hL
  simp only [shiftTrace, Target.after_append, Target.answers_append, Bool.and_eq_true_iff] at hanswers ⊢
  obtain ⟨⟨-, hscan⟩, -⟩ := hanswers
  obtain ⟨hrunIn, htapIn, hloaded, hotherIn⟩ := Target.after_walkIn p hrun htap
  have hne : drivenBits v W P L ≠ [] := List.ne_nil_of_length_pos (by omega)
  obtain ⟨hrunOut, htapOut, hown, hother⟩ := Target.after_scanEvents p hne sampled hrunIn htapIn
  rw [Target.after_walkHome p hrunOut htapOut, Target.after_walkHome p hrunOut htapOut, hown, hother, hotherIn, hloaded]
  refine ⟨?_, rfl, ?_⟩
  · rw [foldl_shiftStages (by omega), hdriven, List.drop_of_length_le hcapture.le, List.nil_append]
  · have hcaptured : sampled = ((g.after (walkEvents p.walk)).stages p).take sampled.length :=
      Target.sampled_of_answers p hrunIn htapIn (by omega) (by rw [hloaded]; omega) hscan
    rw [hloaded, hsampled] at hcaptured
    rw [hcaptured, List.drop_take, show L - P - (L - P - W) = W by omega]

/-- A target brought together with TAPENG at home runs, in SelectDRScan (R24, R114). -/
theorem Target.running_of_home {s : State} (hh : home s = true) (htogether : g.together s = true) :
    g.port.running ∧ g.port.tap = .SelectDRScan := by
  obtain ⟨-, htap, hc, ht⟩ := (home_iff s).mp hh
  have hport : g.port = s.port := eq_of_beq htogether
  rw [hport]
  exact ⟨⟨hc, ht⟩, htap⟩

end Shift

end Sys2Proof.Machine
end

section
/-! PROOFS. The statements of 42_shift_ops.md: the three shifts (R145 to R147), their counts (R148, R149), and what they
do to a reference path (R151). -/

namespace Sys2Proof.Machine

/-- Settles O25: SHIFT_IR answers its refusals in order, and from home it is one move and its response. -/
theorem shiftIrShiftsTheInstructionPath : Obligations.ShiftIrShiftsTheInstructionPath := by
  refine fun width value => ⟨opField_wordS 6 width value, widthField_wordS 6 width value, valueField_wordS 6 width value,
    reservedClearS_wordS 6 width value, shiftStops exec_shiftIr_refused, ?_⟩
  intro s hlink hW hW32 htap hc ht hfit
  exact exec_shiftIr_home value ((home_iff s).mpr ⟨hlink, htap, hc, ht⟩) hW hW32 hfit

/-- Settles O26: the same for SHIFT_DR, on the data path. -/
theorem shiftDrShiftsTheDataPath : Obligations.ShiftDrShiftsTheDataPath := by
  refine fun width value => ⟨opField_wordS 7 width value, widthField_wordS 7 width value, valueField_wordS 7 width value,
    reservedClearS_wordS 7 width value, shiftStops exec_shiftDr_refused, ?_⟩
  intro s hlink hW hW32 htap hc ht hfit
  exact exec_shiftDr_home value ((home_iff s).mpr ⟨hlink, htap, hc, ht⟩) hW hW32 hfit

/-- Settles O27: a refusal comes before the line moves; otherwise the instruction shift stands between its two writes. -/
theorem execInResetShiftsUnderReset : Obligations.ExecInResetShiftsUnderReset := by
  refine fun width value => ⟨opField_wordS 9 width value, widthField_wordS 9 width value, valueField_wordS 9 width value,
    reservedClearS_wordS 9 width value, shiftStops exec_execInReset_refused, ?_⟩
  intro s hlink hW hW32 htap hc ht hfit
  exact exec_execInReset_home value ((home_iff s).mpr ⟨hlink, htap, hc, ht⟩) hW hW32 hfit

/-- Settles O29: a shift pulses once for each cycle of its walks and of its scan, and its samples are the `L - P` answers
it takes; what EXEC_IN_RESET adds around the shift counts for neither. -/
theorem shiftPulseAndSampleCounts : Obligations.ShiftPulseAndSampleCounts := by
  intro s width value hh hwidth
  obtain ⟨hW, hW32⟩ := of_decide_eq_true hwidth
  refine ⟨fun hfit i hi => ?_, fun hfit => ?_⟩
  · have hL := pathLen_fits hfit
    rcases List.mem_pair.mp hi with rfl | rfl
    · refine ⟨_, _, exec_shiftIr_home value hh hW hW32 hfit, rfl, clockPulses_shiftTrace _ value hL _, ?_⟩
      rw [sampledLevels_shiftTrace _ value hL (by simp), answersOf_length]
    · refine ⟨_, _, exec_execInReset_home value hh hW hW32 hfit, rfl, ?_, ?_⟩
      · rw [clockPulses_underReset]
        exact clockPulses_shiftTrace _ value hL _
      · rw [sampledLevels_underReset, sampledLevels_shiftTrace _ value hL (by simp), answersOf_length]
  · have hL := pathLen_fits hfit
    refine ⟨_, _, exec_shiftDr_home value hh hW hW32 hfit, rfl, clockPulses_shiftTrace _ value hL _, ?_⟩
    rw [sampledLevels_shiftTrace _ value hL (by simp), answersOf_length]

/-- Settles O30: the shift's events at a target in step with TAPENG are a capture of the instruction path and a scan of
exactly its stages. -/
theorem instructionShiftOnTheReferencePath : Obligations.InstructionShiftOnTheReferencePath := by
  intro s g width value hh hwidth hfit htogether W P L hcapture
  obtain ⟨hW, hW32⟩ := of_decide_eq_true hwidth
  obtain ⟨hrun, htap⟩ := Target.running_of_home hh htogether
  refine ⟨_, _, exec_shiftIr_home value hh hW hW32 hfit, rfl, fun hanswers => ?_⟩
  obtain ⟨hpath, hother, hkept⟩ :=
    Target.shift_on_path .instruction hrun htap hW (pathLen_fits hfit) hcapture (answersOf_length s _) hanswers
  exact ⟨hpath, hother, by rw [respond_response, hkept]; rfl⟩

/-- Settles O31: the same of the data path. -/
theorem dataShiftOnTheReferencePath : Obligations.DataShiftOnTheReferencePath := by
  intro s g width value hh hwidth hfit htogether W P L hcapture
  obtain ⟨hW, hW32⟩ := of_decide_eq_true hwidth
  obtain ⟨hrun, htap⟩ := Target.running_of_home hh htogether
  refine ⟨_, _, exec_shiftDr_home value hh hW hW32 hfit, rfl, fun hanswers => ?_⟩
  obtain ⟨hpath, hother, hkept⟩ :=
    Target.shift_on_path .data hrun htap hW (pathLen_fits hfit) hcapture (answersOf_length s _) hanswers
  exact ⟨hpath, hother, by rw [respond_response, hkept]; rfl⟩

end Sys2Proof.Machine
end

section
/-! SUPPORT. MEASURE: its probes named from the answers they take, what it ends with, and its pulses and samples (spec
43_measure.md R160 to R167). -/

namespace Sys2Proof.Machine

/-! ### The answers a probe takes (R161) -/

/-- The answers a probe from `s` takes when it may take `m`: those up to the first 0, or all of them. -/
def probeAnswers (m : Nat) (s : State) : List Level := answersOf s (probeSamples m (probeResult (answersOf s m)))

theorem probeAnswers_length (m : Nat) (s : State) :
    (probeAnswers m s).length = probeSamples m (probeResult (answersOf s m)) := answersOf_length ..

theorem probeAnswers_ne_nil {m : Nat} (s : State) (hm : 1 ≤ m) : probeAnswers m s ≠ [] := by
  apply List.ne_nil_of_length_pos
  rw [probeAnswers_length]
  exact probeSamples_pos _ hm

/-- A probe whose first answer is 0 has the result 1. -/
theorem probeResult_answersOf_zero {m : Nat} {s : State} (hm : 1 ≤ m) (h : answerAt s 0 = false) :
    probeResult (answersOf s m) = some 1 := by
  obtain ⟨n, rfl⟩ := Nat.exists_eq_add_of_le' hm
  rw [answersOf_succ, h, probeResult_zero]

/-- A probe whose first answer is 1 counts one more than a probe of the answers after it. -/
theorem probeResult_answersOf_one (m : Nat) {s : State} (h : answerAt s 0 = true) :
    probeResult (answersOf s (m + 1)) = (probeResult (answersOf (consume 1 s) m)).map (· + 1) := by
  rw [answersOf_succ, h, probeResult_one]

theorem probeAnswers_zero {m : Nat} {s : State} (hm : 1 ≤ m) (h : answerAt s 0 = false) :
    probeAnswers m s = [false] := by
  rw [probeAnswers, probeResult_answersOf_zero hm h, probeSamples, Option.getD_some, answersOf_succ, h]
  rfl

theorem probeAnswers_one (m : Nat) {s : State} (h : answerAt s 0 = true) :
    probeAnswers (m + 1) s = true :: probeAnswers m (consume 1 s) := by
  rw [probeAnswers, probeResult_answersOf_one m h, probeSamples_succ, answersOf_succ, h, probeAnswers]

/-- Every one of the next `n` answers is `v` when each of them by number is. -/
theorem forall_mem_answersOf {s : State} {n : Nat} {v : Level} :
    (∀ b ∈ answersOf s n, b = v) ↔ ∀ k < n, answerAt s k = v := by
  simp [answersOf]

/-! ### The two probes of a MEASURE from `s` (R160) -/

namespace State

/-- The result of the instruction probe. -/
def probeI (s : State) : Option Nat := probeResult (answersOf s s.params.maxProbe)

/-- The environment's answers as the instruction probe leaves them. -/
def afterProbeI (s : State) : State := consume (probeSamples s.params.maxProbe s.probeI) s

/-- The result of the data probe. -/
def probeD (s : State) : Option Nat := probeResult (answersOf s.afterProbeI s.params.maxProbe)

/-- The events of the instruction probe. -/
def probeEventsI (s : State) : List Event :=
  probeTrace [true, false, false] s.params.maxProbe (probeAnswers s.params.maxProbe s)

/-- The events of the data probe. -/
def probeEventsD (s : State) : List Event :=
  probeTrace [false, false] s.params.maxProbe (probeAnswers s.params.maxProbe s.afterProbeI)

/-- The state after both probes. -/
def probed (s : State) : State :=
  moved { s.out with mode := true, dataIn := true } .SelectDRScan (s.probeEventsI ++ s.probeEventsD)
    (probeSamples s.params.maxProbe s.probeI + probeSamples s.params.maxProbe s.probeD) s

theorem probeI_range {s : State} {n : Nat} (h : s.probeI = some n) : 1 ≤ n ∧ n ≤ s.params.maxProbe := by
  simpa using probeResult_range h

theorem probeD_range {s : State} {n : Nat} (h : s.probeD = some n) : 1 ≤ n ∧ n ≤ s.params.maxProbe := by
  simpa using probeResult_range h

/-- The data probe's answers come right after those the instruction probe took. -/
theorem answerAt_afterProbeI (s : State) (k : Nat) :
    answerAt s.afterProbeI k = answerAt s (probeSamples s.params.maxProbe s.probeI + k) := answerAt_consume ..

end State

/-! ### How MEASURE ends (R160, R163) -/

/-- A length that fits in 32 bits is its response word (R78). -/
theorem lengthWord_toNat {n : Nat} (h : n < 2 ^ 32) : (lengthWord n).toNat = n := by
  rw [lengthWord, if_pos h, BitVec.toNat_ofNat, Nat.mod_eq_of_lt h]

@[simp] theorem recordLengths_trace (r : Option Nat × Option Nat) (s : State) : (recordLengths r s).trace = s.trace := by
  rcases r with ⟨_ | m, _ | n⟩ <;> rfl

/-- The response is Overflow exactly when one of the two results is (R160, R163). -/
theorem recordLengths_response_overflow_iff (a b : Option Nat) (s : State) :
    (recordLengths (a, b) s).response = some { status := .Overflow, r0 := 0, r1 := 0 } ↔ a = none ∨ b = none := by
  rcases a with _ | m <;> rcases b with _ | n
  case some.some => simp [recordLengths_some]
  all_goals exact iff_of_true rfl (by simp)

section Run
variable {s : State} (hp : s.params.wf) (hh : home s = true)
include hp hh

/-- MEASURE from home: both probes, then both lengths written or cleared (R160). -/
theorem exec_measure_home : exec .measure s = .next (recordLengths (s.probeI, s.probeD) s.probed) := by
  rw [exec_measure_accepted (measureRefusal_none hh), probeBoth_eq s hp hh]
  rfl

theorem exec_measure_ok {m n : Nat} (hI : s.probeI = some m) (hD : s.probeD = some n) :
    exec .measure s = .next (respond .OK (lengthWord m) (lengthWord n) { s.probed with lenI := m, lenD := n }) := by
  rw [exec_measure_home hp hh, hI, hD, recordLengths_some]

theorem exec_measure_overflow (h : s.probeI = none ∨ s.probeD = none) :
    exec .measure s = .next (raise .Overflow { s.probed with lenI := 0, lenD := 0 }) := by
  rw [exec_measure_home hp hh, recordLengths_overflow _ _ _ h]

end Run

/-! ### Clock pulses and samples of a probe (R166) -/

theorem clockPulses_replicate (n : Nat) (events : List Event) :
    clockPulses (List.replicate n events).flatten = n * clockPulses events := by
  induction n with
  | zero => exact (Nat.zero_mul _).symm
  | succ n ih =>
    rw [List.replicate_succ, List.flatten_cons, clockPulses_append, ih, Nat.succ_mul, Nat.add_comm]

/-- One pulse between each sample and the next (R161). -/
theorem clockPulses_probingEvents (b : Level) (rest : List Level) :
    clockPulses (probingEvents (b :: rest)) = rest.length := by
  induction rest generalizing b with
  | nil => rfl
  | cons c rest ih =>
    have hcycle : clockPulses ([.wait .settle, .sample b] ++ navEvents false) = 1 := rfl
    rw [probingEvents_cons b (List.cons_ne_nil c rest), clockPulses_append, hcycle, ih, List.length_cons, Nat.add_comm]

/-- A probe pulses the clock for its walk in, the run of ones, the 0, between its samples, and three times on the way
home (R166). -/
theorem clockPulses_probeTrace (walk : List Level) (m : Nat) {bits : List Level} (hbits : bits ≠ []) :
    clockPulses (probeTrace walk m bits) = m + bits.length + (walk.length + 3) := by
  obtain ⟨b, rest, rfl⟩ := List.exists_cons_of_ne_nil hbits
  have hdataIn : clockPulses [.set .dataIn true] = 0 := rfl
  simp only [probeTrace, clockPulses_append, clockPulses_walkEvents, clockPulses_replicate, clockPulses_shiftEvents,
    clockPulses_probingEvents, hdataIn, List.length_cons, List.length_nil]
  omega

theorem sampledLevels_replicate {events : List Event} (h : sampledLevels events = []) (n : Nat) :
    sampledLevels (List.replicate n events).flatten = [] := by
  induction n with
  | zero => rfl
  | succ n ih => rw [List.replicate_succ, List.flatten_cons, sampledLevels_append, h, ih, List.nil_append]

theorem sampledLevels_probingEvents (bits : List Level) : sampledLevels (probingEvents bits) = bits := by
  induction bits with
  | nil => rfl
  | cons b rest ih =>
    rcases rest with _ | ⟨c, rest⟩
    · rfl
    · rw [probingEvents_cons b (List.cons_ne_nil c rest), sampledLevels_append, ih]
      rfl

/-- A probe samples in its sampling loop only (R161). -/
theorem sampledLevels_probeTrace (walk : List Level) (m : Nat) (bits : List Level) :
    sampledLevels (probeTrace walk m bits) = bits := by
  have hdataIn : sampledLevels [.set .dataIn true] = [] := rfl
  simp only [probeTrace, sampledLevels_append, sampledLevels_walkEvents, sampledLevels_shiftEvents,
    sampledLevels_replicate (sampledLevels_shiftEvents false true none), sampledLevels_probingEvents, hdataIn,
    Option.toList_none, List.nil_append, List.append_nil]

end Sys2Proof.Machine
end

section
/-! SUPPORT. A length probe seen by a target with a reference path of 1 to `MAX_PROBE` stages: the run of ones fills the
path, the single 0 comes out after as many pulses as it has stages, and ones follow it (spec 20_memory.md R51,
43_measure.md R165). The target is the assumption of log 15. -/

namespace Sys2Proof.Machine

/-! ### What no event changes -/

/-- No event changes what the next Capture loads (R51). -/
theorem Target.see_capture (g : Target) (e : Event) (p : ScanPath) : (g.see e).capture p = g.capture p := by
  rcases e with ⟨sig, v⟩ | v | t
  case set =>
    cases sig
    case clock =>
      cases v with
      | false => cases p <;> rfl
      | true => cases hc : g.port.out.clock <;> cases p <;> simp [Target.see, Target.capture, Target.clocked, hc]
    case trst => cases hw : g.trstWired <;> cases p <;> simp [Target.see, Target.capture, hw]
    all_goals cases p <;> rfl
  case sample => rfl
  case wait => rfl

theorem Target.after_capture (g : Target) (events : List Event) (p : ScanPath) :
    (g.after events).capture p = g.capture p := by
  induction events generalizing g with
  | nil => rfl
  | cons e rest ih => exact (ih (g.see e)).trans (g.see_capture e p)

/-! ### Steps of the sampling loop -/

theorem probeAnswers_eq_cons {m : Nat} (s : State) (hm : 1 ≤ m) : ∃ rest, probeAnswers m s = answerAt s 0 :: rest := by
  cases h : answerAt s 0
  · exact ⟨[], probeAnswers_zero hm h⟩
  · obtain ⟨n, rfl⟩ := Nat.exists_eq_add_of_le' hm
    exact ⟨_, probeAnswers_one n h⟩

/-- The first sample of the sampling loop is answered by the path as it stands. -/
theorem Target.mayAnswer_of_probingEvents {g : Target} {b : Level} {rest : List Level}
    (h : g.answers (probingEvents (b :: rest)) = true) : g.mayAnswer b = true := by
  rcases rest with _ | ⟨c, rest⟩
  all_goals exact (Bool.and_eq_true_iff.mp h).1

/-- A sample and the pulse after it are one clock cycle that leaves data-in as it is (R161). -/
theorem Target.after_probingCycle {g : Target} (hrun : g.port.running) (b : Level) :
    g.after ([.wait .settle, .sample b] ++ navEvents false) = g.cycle false g.port.out.dataIn :=
  Target.after_navEvents hrun false

/-! ### The target from one part of a probe to the next -/

/-- The machine of the target runs, in state `x`; the stages of path `p` are `own`, those of the other path `other`. -/
structure Target.Holds (g : Target) (x : Tap) (p : ScanPath) (own other : List Level) : Prop where
  running : g.port.running
  tap : g.port.tap = x
  own : g.stages p = own
  other : g.stages p.other = other

namespace Target.Holds

variable {g : Target} {p : ScanPath} {own other : List Level}

/-- The walk in from SelectDRScan loads the path (R120, R51). -/
theorem after_walkIn (h : g.Holds .SelectDRScan p own other) :
    (g.after (walkEvents p.walk)).Holds p.shiftTap p (g.capture p) other := by
  obtain ⟨hrun, htap, hloaded, hother⟩ := Target.after_walkIn p h.running h.tap
  exact ⟨hrun, htap, hloaded, hother.trans h.other⟩

/-- The walk home moves neither path (R120). -/
theorem after_walkHome (h : g.Holds p.exitTap p own other) :
    (g.after (walkEvents [true, true])).Holds .SelectDRScan p own other := by
  obtain ⟨hrun, htap, hown, hother⟩ := h
  have htapHome : (g.after (walkEvents [true, true])).port.tap = .SelectDRScan := by
    rw [Target.after_walkEvents hrun]
    cases p <;> simp [tapNext, htap]
  exact ⟨by rw [Target.after_walkEvents hrun]; exact hrun, htapHome,
    (Target.after_walkHome p hrun htap p).trans hown,
    (Target.after_walkHome p hrun htap p.other).trans hother⟩

section Cycles
variable (h : g.Holds p.shiftTap p own other)
include h

/-- A cycle in the Shift state shifts the path, and leaves the state when `mode` is high (R110, R51). -/
theorem cycle (tms tdi : Level) :
    (g.cycle tms tdi).Holds (if tms then p.exitTap else p.shiftTap) p (shiftStages own tdi) other := by
  obtain ⟨hrun, htap, hown, hother⟩ := h
  obtain ⟨hnext, hshifted, hkept⟩ := g.cycle_shift p htap tms tdi
  exact ⟨g.cycle_running hrun tms tdi, hnext, hshifted.trans (by rw [hown]), hkept.trans hother⟩

theorem after_shiftEvents (tms tdi : Level) :
    (g.after (shiftEvents tms tdi none)).Holds (if tms then p.exitTap else p.shiftTap) p (shiftStages own tdi) other := by
  rw [Target.after_shiftEvents h.running]
  exact h.cycle tms tdi

/-- The run of `n` equal bits is a shift of `n` bits. -/
theorem after_run (n : Nat) (tdi : Level) :
    (g.after (List.replicate n (shiftEvents false tdi none)).flatten).Holds p.shiftTap p
      ((List.replicate n tdi).foldl shiftStages own) other := by
  induction n generalizing g own with
  | zero => exact h
  | succ n ih =>
    rw [List.replicate_succ, List.flatten_cons, Target.after_append, List.replicate_succ, List.foldl_cons]
    exact ih (h.after_shiftEvents false tdi)

/-- A write of data-in alone moves nothing. -/
theorem after_dataIn (v : Level) : (g.after [.set .dataIn v]).Holds p.shiftTap p own other := by
  obtain ⟨hrun, htap, hown, hother⟩ := h
  refine ⟨hrun, htap, ?_, ?_⟩
  · cases p <;> exact hown
  · cases p <;> exact hother

end Cycles

/-- The first answer to the sampling loop is the path's stage 0 (R51). -/
theorem answerAt_zero {c : Level} {m : Nat} {s : State} (h : g.Holds p.shiftTap p (c :: own) other) (hm : 1 ≤ m)
    (hanswers : g.answers (probingEvents (probeAnswers m s)) = true) : answerAt s 0 = c := by
  obtain ⟨rest, hcons⟩ := probeAnswers_eq_cons s hm
  exact Target.head_of_mayAnswer h.tap h.own (Target.mayAnswer_of_probingEvents (hcons ▸ hanswers))

/-- The sampling loop on a path whose 0 stands behind `k` ones: if the target answers every sample, the probe's result is
`k + 1`, and the loop leaves the 0 at data-out with ones behind it (R161, R165). -/
theorem after_probing {k j m : Nat} {s : State} (hk : k < m)
    (h : g.Holds p.shiftTap p (List.replicate k true ++ false :: List.replicate j true) other)
    (hdataIn : g.port.out.dataIn = true)
    (hanswers : g.answers (probingEvents (probeAnswers m s)) = true) :
    probeResult (answersOf s m) = some (k + 1)
      ∧ (g.after (probingEvents (probeAnswers m s))).Holds p.shiftTap p (false :: List.replicate (j + k) true) other := by
  induction k generalizing g j m s with
  | zero =>
    have hfirst : answerAt s 0 = false := h.answerAt_zero hk hanswers
    rw [probeAnswers_zero hk hfirst]
    exact ⟨probeResult_answersOf_zero hk hfirst, h⟩
  | succ k ih =>
    obtain ⟨n, rfl⟩ := Nat.exists_eq_add_of_lt (Nat.zero_lt_of_lt hk)
    rw [Nat.zero_add] at hk hanswers ⊢
    have hfirst : answerAt s 0 = true := h.answerAt_zero (Nat.succ_pos n) hanswers
    have hlater : probeAnswers n (consume 1 s) ≠ [] := probeAnswers_ne_nil _ (by omega)
    rw [probeAnswers_one n hfirst, probingEvents_cons true hlater] at hanswers ⊢
    rw [Target.answers_append, Bool.and_eq_true_iff, Target.after_probingCycle h.running, hdataIn] at hanswers
    obtain ⟨-, hanswersLater⟩ := hanswers
    rw [Target.after_append, Target.after_probingCycle h.running, hdataIn]
    have hshifted : (g.cycle false true).Holds p.shiftTap p
        (List.replicate k true ++ false :: List.replicate (j + 1) true) other := by
      simpa [List.replicate_succ, shiftStages, ← List.replicate_succ'] using h.cycle false true
    obtain ⟨hresult, hafter⟩ := ih (by omega) hshifted rfl hanswersLater
    rw [probeResult_answersOf_one n hfirst, hresult, show j + (k + 1) = j + 1 + k by omega]
    exact ⟨rfl, hafter⟩

end Target.Holds

/-! ### A whole probe -/

theorem shiftStages_length (stages : List Level) (tdi : Level) : (shiftStages stages tdi).length = stages.length := by
  cases stages <;> simp [shiftStages]

/-- A run of at least as many equal bits as the path has stages fills it with that bit (R51). -/
theorem foldl_shiftStages_replicate {n : Nat} {stages : List Level} (v : Level) (h : stages.length ≤ n) :
    (List.replicate n v).foldl shiftStages stages = List.replicate stages.length v := by
  induction n generalizing stages with
  | zero => rw [List.length_eq_zero_iff.mp (Nat.le_zero.mp h)]; rfl
  | succ n ih =>
    rcases Nat.lt_or_ge n stages.length with hlong | hshort
    · rw [foldl_shiftStages (by rw [List.length_replicate]; exact hlong), List.length_replicate,
        List.drop_of_length_le h, List.nil_append, Nat.le_antisymm h hlong]
    · rw [List.replicate_succ, List.foldl_cons, ih (by rwa [shiftStages_length]), shiftStages_length]

/-- A probe of a path of 1 to `m` stages, whatever it captured, by a target that answers every sample: the result is the
path's length, the path is left full of ones and the other path as it was, and the machine is back in SelectDRScan
(R165). -/
theorem Target.probe_on_path {g : Target} {p : ScanPath} {own other : List Level} {m L : Nat} {s : State}
    (h : g.Holds .SelectDRScan p own other) (hcapture : (g.capture p).length = L) (hpos : 1 ≤ L) (hmax : L ≤ m)
    (hanswers : g.answers (probeTrace p.walk m (probeAnswers m s)) = true) :
    probeResult (answersOf s m) = some L
      ∧ (g.after (probeTrace p.walk m (probeAnswers m s))).Holds .SelectDRScan p (List.replicate L true) other := by
  obtain ⟨k, rfl⟩ := Nat.exists_eq_add_of_le' hpos
  simp only [probeTrace, Target.after_append, Target.answers_append, Bool.and_eq_true_iff] at hanswers ⊢
  obtain ⟨⟨⟨-, hprobing⟩, -⟩, -⟩ := hanswers
  have hones := h.after_walkIn.after_run m true
  rw [foldl_shiftStages_replicate true (hcapture.trans_le hmax), hcapture, List.replicate_succ] at hones
  have hzero := (hones.after_shiftEvents false false).after_dataIn true
  obtain ⟨hresult, hprobed⟩ := hzero.after_probing (k := k) (j := 0) hmax rfl hprobing
  have hout := hprobed.after_shiftEvents true true
  rw [shiftStages, Nat.zero_add, ← List.replicate_succ'] at hout
  exact ⟨hresult, hout.after_walkHome⟩

end Sys2Proof.Machine
end

section
/-! PROOFS. The statements of 43_measure.md: MEASURE event by event (R160, R161), its overflow (R163), the lengths (R164),
the reference paths (R165), the counts (R166) and stuck lines (R167). -/

namespace Sys2Proof.Machine

/-- Settles O32: MEASURE answers its refusals in order, and from home it is one move and the record of two results. -/
theorem measureProbesBothPaths : Obligations.MeasureProbesBothPaths := by
  refine ⟨by decide, linkStops Instr.noConfusion Instr.noConfusion,
    fun s hlink haway => exec_measure_refused (measureRefusal_away hlink (home_eq_false haway)),
    fun n hn => lengthWord_toNat hn, ?_⟩
  intro s hp hlink htap hc ht m a after b done
  have hmeasure : exec .measure s = .next (recordLengths (a, b) done) :=
    exec_measure_home hp ((home_iff s).mpr ⟨hlink, htap, hc, ht⟩)
  rw [hmeasure]
  clear_value done b after a
  rcases a with _ | p <;> rcases b with _ | q <;> rfl

/-- Settles O33: a probe's result is Overflow when all its answers are 1, and MEASURE's when either probe's is. -/
theorem measureOverflowsWhenNoZeroReturns : Obligations.MeasureOverflowsWhenNoZeroReturns := by
  intro s hp hh
  have hend : home (recordLengths (s.probeI, s.probeD) s.probed) = true := by
    rw [home_recordLengths]
    exact home_moved _ _ hh rfl rfl
  refine ⟨_, exec_measure_home hp hh, hend, ((home_iff _).mp hend).1, ?_⟩
  rw [recordLengths_response_overflow_iff, ← probeResult_none_iff, ← probeResult_none_iff]
  rfl

/-- Settles O34: a MEASURE that is not refused ends with the two results, or with Overflow when one of them is. -/
theorem lengthsComeFromOneMeasurement : Obligations.LengthsComeFromOneMeasurement := by
  refine ⟨fun i s t hi h => exec_lengths hi h, fun s t hp h => ?_⟩
  cases href : measureRefusal s with
  | some e =>
    rw [exec_measure_refused href] at h
    cases h
    exact .inl ⟨e, measureRefusal_isRefusal href, rfl⟩
  | none =>
    have hh := measureRefusal_eq_none href
    by_cases hover : s.probeI = none ∨ s.probeD = none
    · rw [exec_measure_overflow hp hh hover] at h
      cases h
      exact .inr (.inr ⟨rfl, rfl, rfl⟩)
    · obtain ⟨hI, hD⟩ := not_or.mp hover
      obtain ⟨m, hI⟩ := Option.ne_none_iff_exists'.mp hI
      obtain ⟨n, hD⟩ := Option.ne_none_iff_exists'.mp hD
      rw [exec_measure_ok hp hh hI hD] at h
      cases h
      obtain ⟨hm, hmMax⟩ := State.probeI_range hI
      obtain ⟨hn, hnMax⟩ := State.probeD_range hD
      have hafter : s.afterProbeI = consume (probeSamples s.params.maxProbe (some m)) s := by
        rw [State.afterProbeI, hI]
      exact .inr (.inl ⟨hI, hafter ▸ hD, hm, hmMax, hn, hnMax, rfl⟩)

/-- Settles O35: the pulses and samples of the two probes' traces. -/
theorem measurePulseAndSampleCounts : Obligations.MeasurePulseAndSampleCounts := by
  intro s hp hh m a b
  have hI : (probeAnswers m s).length = a := probeAnswers_length m s
  have hD : (probeAnswers m s.afterProbeI).length = b := probeAnswers_length m s.afterProbeI
  refine ⟨_, s.probeEventsI ++ s.probeEventsD, exec_measure_home hp hh, recordLengths_trace _ _, ?_, ?_⟩
  · rw [clockPulses_append, State.probeEventsI, State.probeEventsD, clockPulses_probeTrace _ _ (probeAnswers_ne_nil _ hp),
      clockPulses_probeTrace _ _ (probeAnswers_ne_nil _ hp), hI, hD]
    rfl
  · rw [sampledLevels_append, State.probeEventsI, State.probeEventsD, sampledLevels_probeTrace, sampledLevels_probeTrace,
      List.length_append, hI, hD]

/-- Settles O36: each probe's events at a target in step with TAPENG find the length of the path they run on; the data
probe starts where the instruction probe left the target and leaves the instruction path as it is. -/
theorem measureFindsTheReferenceLengths : Obligations.MeasureFindsTheReferenceLengths := by
  intro s g hp hh htogether hposI hmaxI hposD hmaxD
  obtain ⟨hrun, htap⟩ := Target.running_of_home hh htogether
  refine ⟨_, s.probeEventsI ++ s.probeEventsD, exec_measure_home hp hh, recordLengths_trace _ _, fun hanswers => ?_⟩
  rw [Target.answers_append, Bool.and_eq_true_iff] at hanswers
  obtain ⟨hanswersI, hanswersD⟩ := hanswers
  have hstart : g.Holds .SelectDRScan .instruction g.irStages g.drStages := ⟨hrun, htap, rfl, rfl⟩
  obtain ⟨hI, hrunI, htapI, hownI, -⟩ := Target.probe_on_path hstart rfl hposI hmaxI hanswersI
  have hbetween : (g.after s.probeEventsI).Holds .SelectDRScan .data _ (List.replicate g.irCapture.length true) :=
    ⟨hrunI, htapI, rfl, hownI⟩
  have hcapture : ((g.after s.probeEventsI).capture .data).length = g.drCapture.length :=
    congrArg List.length (g.after_capture _ .data)
  obtain ⟨hD, -, -, hownD, hotherD⟩ := Target.probe_on_path hbetween hcapture hposD hmaxD hanswersD
  have hlengths : recordLengths (s.probeI, s.probeD) s.probed = recordLengths (some _, some _) s.probed :=
    congrArg₂ (fun a b => recordLengths (a, b) s.probed) hI hD
  rw [hlengths, Target.after_append]
  exact ⟨rfl, rfl, hotherD, hownD, rfl⟩

/-- Settles O37: each probe ends at its first answer on a line that reads 0, and finds no 0 on one that reads 1. -/
theorem stuckLineMeasurements : Obligations.StuckLineMeasurements := by
  refine fun s hp hh => ⟨fun hlow => ?_, fun hhigh => ?_⟩
  · have hm : 1 ≤ s.params.maxProbe := hp
    have hI : s.probeI = some 1 := probeResult_answersOf_zero hm (hlow 0 (by omega))
    have hsecond : answerAt s.afterProbeI 0 = false := by
      rw [State.answerAt_afterProbeI, hI]
      exact hlow 1 (by omega)
    exact ⟨_, exec_measure_ok hp hh hI (probeResult_answersOf_zero hm hsecond), rfl, rfl, rfl⟩
  · have hI : s.probeI = none :=
      (probeResult_none_iff _).mpr (forall_mem_answersOf.mpr fun k hk => hhigh k (by omega))
    exact ⟨_, exec_measure_overflow hp hh (.inl hI), rfl, rfl, rfl⟩

end Sys2Proof.Machine
end

section
/-! SUPPORT. How a step and a command can end: what a step does with the host's next act, the refusals in the order of
spec 60_exceptions.md R176, and the three endings of a command (R170 to R174). -/

namespace Sys2Proof.Machine

/-! ### A step, by the host's next act (R188, R200, R70) -/

section Step
variable {s : State} {w : Command} {rest : List HostAct}

theorem step_idle (hhost : s.host = []) : step s = .next s := by
  simp only [step, runNextAct, hhost]

theorem step_engineReset (hhost : s.host = .engineReset :: rest) : step s = .next (engineReset (takeAct rest s)) := by
  simp only [step, runNextAct, hhost]

theorem step_command (hhost : s.host = .command w :: rest) : step s = runCommand w (takeAct rest s) := by
  simp only [step, runNextAct, hhost]

/-- Whatever the host's next act is, a step answers a next state (R181). -/
theorem exists_step (s : State) : ∃ t, step s = .next t := by
  cases hhost : s.host with
  | nil => exact ⟨s, step_idle hhost⟩
  | cons act rest =>
    cases act with
    | command w =>
      obtain ⟨t, hrun, -⟩ := runCommand_commandEffect w (takeAct rest s)
      exact ⟨t, (step_command hhost).trans hrun⟩
    | engineReset => exact ⟨_, step_engineReset hhost⟩

/-! ### Illegal words (R77, R173) -/

/-- A word that no row selects is the word of no command, so it does not decode (R77). -/
theorem decode_error_of_no_row (h : ∀ r ∈ rows, r.selects w = false) : ∃ e, decode w = .error e := by
  cases hdecode : decode w with
  | error e => exact ⟨e, rfl⟩
  | ok i =>
    have hselects : i.row.selects w = true := encode_of_decode hdecode ▸ row_selects_encode i
    exact absurd ((h _ ((mem_rows_iff _).mpr ⟨i, rfl⟩)).symm.trans hselects) Bool.false_ne_true

/-- Either reason a word is illegal for is answered `IllegalCommand`. -/
theorem runCommand_illegal {e : Illegal} (hdecode : decode w = .error e) (s : State) :
    runCommand w s = .next (raise .IllegalCommand s) := by
  cases e <;> simp only [runCommand, hdecode]

theorem step_illegal {e : Illegal} (hhost : s.host = .command w :: rest) (hdecode : decode w = .error e) :
    step s = .next (raise .IllegalCommand (takeAct rest s)) :=
  (step_command hhost).trans (runCommand_illegal hdecode _)

end Step

/-! ### Refusals by the link (R176, 2 and 3) -/

theorem openRefusal_isRefusal {s : State} {e : Status} (h : openRefusal s = some e) : e.isRefusal = true := by
  unfold openRefusal at h
  split at h <;> cases h <;> rfl

/-- A failed link refuses every command but CLOSE, OPEN among them (R174). -/
theorem exec_linkFailed {i : Instr} {s : State} (hclose : i ≠ .closeLink) (hlink : s.link = .Failed) :
    exec i s = .next (raise .LinkFailed s) := by
  by_cases hopen : i = .openLink
  · exact hopen ▸ exec_openLink_failed hlink
  · exact (linkStops hopen hclose s).1 hlink

/-! ### Refusals by the operands, and of a shift (R176, 4 and 6) -/

theorem legalWidth_iff (width : BitVec 6) : legalWidth width = true ↔ 1 ≤ width.toNat ∧ width.toNat ≤ 32 :=
  decide_eq_true_iff

theorem legalSignal_iff (sig : BitVec 3) : legalSignal sig = true ↔ sig.toNat ≤ 4 := decide_eq_true_iff

section Shift
variable {i : Instr} {s : State} {W P len : Nat}

/-- A shift command is well formed when its width is legal (R73). -/
theorem wellFormed_iff_of_shiftOf (hi : i.shiftOf s = some (W, P, len)) : i.wellFormed = true ↔ 1 ≤ W ∧ W ≤ 32 := by
  cases i with
  | openLink | closeLink | setsig | rdtdo | connect | measure => exact nomatch hi
  | shiftIr width | shiftDr width | execInReset width =>
    cases hi
    exact legalWidth_iff width

/-- A shift command answers what `shiftRefusal` says of its width and its path (R145 to R147). -/
theorem exec_of_shiftRefusal {e : Status} (hi : i.shiftOf s = some (W, P, len)) (h : shiftRefusal len P W s = some e) :
    exec i s = .next (raise e s) := by
  cases i with
  | openLink | closeLink | setsig | rdtdo | connect | measure => exact nomatch hi
  | shiftIr => cases hi; exact exec_shiftIr_refused h
  | shiftDr => cases hi; exact exec_shiftDr_refused h
  | execInReset => cases hi; exact exec_execInReset_refused h

/-- With the link open a shift of an illegal width is refused for it, away from home and too wide or not (R143, R176). -/
theorem exec_badWidth (hlink : s.link = .Open) (hi : i.shiftOf s = some (W, P, len)) (hwf : i.wellFormed = false) :
    exec i s = .next (raise .BadWidth s) := by
  have hwidth : ¬(1 ≤ W ∧ W ≤ 32) := (wellFormed_iff_of_shiftOf hi).not.mp (ne_true_of_eq_false hwf)
  exact exec_of_shiftRefusal hi (shiftRefusal_width hlink (by omega))

/-- At home a shift of a legal width that does not fit in its measured path is refused for that (R144). -/
theorem exec_tooWide (hh : home s = true) (hi : i.shiftOf s = some (W, P, len)) (hwf : i.wellFormed = true)
    (hlen : len ≠ 0) (hfit : len < P + W) : exec i s = .next (raise .ShiftTooWide s) := by
  obtain ⟨hW, hW32⟩ := (wellFormed_iff_of_shiftOf hi).mp hwf
  exact exec_of_shiftRefusal hi (shiftRefusal_tooWide hW hW32 hh hlen hfit)

/-- With the link open a command with an illegal operand is refused for it: SETSIG for its signal, a shift for its width
(R95, R143). -/
theorem exec_illFormed (hlink : s.link = .Open) (hwf : i.wellFormed = false) :
    exec i s = .next (raise (if i.needsHome then .BadWidth else .BadSignal) s) := by
  cases i with
  | openLink | closeLink | rdtdo | connect | measure => exact nomatch hwf
  | setsig sig level =>
    have hsig : ¬sig.toNat ≤ 4 := (legalSignal_iff sig).not.mp (ne_true_of_eq_false hwf)
    exact exec_setsig_badSignal hlink (by omega) level
  | shiftIr | shiftDr | execInReset => exact exec_badWidth hlink rfl hwf

end Shift

/-! ### The endings of a command (R170) -/

/-- The three ways a command that starts in `s` can end: refused, with nothing done; with a fault, after some of it was
done; or with OK. -/
inductive Ending (s : State) : State → Prop
  | refused {e : Status} (h : e.isRefusal = true) : Ending s (raise e s)
  | faulted {e : Status} (h : e.isRefusal = false) (u : State) : Ending s (raise e u)
  | ran (a b : Word) (u : State) : Ending s (respond .OK a b u)

theorem openWith_ending (a : OpenAnswer) (s u : State) : Ending s (openWith a u) := by
  cases a with
  | Found => exact .ran ..
  | NotFound => exact .faulted rfl _
  | Busy => exact .faulted rfl _

theorem recordLengths_ending (r : Option Nat × Option Nat) (s u : State) : Ending s (recordLengths r u) := by
  obtain ⟨_ | m, _ | n⟩ := r
  case some.some => exact .ran ..
  all_goals exact .faulted rfl _

/-- Every command ends in one of the three ways. -/
theorem exec_ending (i : Instr) (s : State) : ∃ t, exec i s = .next t ∧ Ending s t := by
  cases i <;> refine ⟨_, rfl, ?_⟩
  case openLink =>
    split
    · next href => exact .refused (openRefusal_isRefusal href)
    · exact openWith_ending ..
  case closeLink => exact .ran ..
  case setsig sig level =>
    split
    · next href => exact .refused (linkRefusal_isRefusal href)
    · split
      · exact .refused rfl
      · exact .ran ..
  case rdtdo | connect =>
    split
    · next href => exact .refused (linkRefusal_isRefusal href)
    · exact .ran ..
  case shiftIr | shiftDr | execInReset =>
    split
    · next href => exact .refused (shiftRefusal_isRefusal href)
    · exact .ran ..
  case measure =>
    split
    · next href => exact .refused (measureRefusal_isRefusal href)
    · exact recordLengths_ending ..

section Ending
variable {s t : State}

theorem Ending.exists_response (h : Ending s t) : ∃ r, t.response = some r := by
  cases h with
  | refused | faulted | ran => exact ⟨_, rfl⟩

/-- A refusal is the old state with its response, and a response that is not OK carries zeros (R171, R172). -/
theorem Ending.response_spec {r : Response} (h : Ending s t) (hr : t.response = some r) :
    (r.status.isRefusal = true → t = raise r.status s) ∧ (r.status ≠ .OK → r.r0 = 0 ∧ r.r1 = 0) := by
  cases h with
  | refused =>
    cases hr
    exact ⟨fun _ => rfl, fun _ => ⟨rfl, rfl⟩⟩
  | faulted hnot =>
    cases hr
    exact ⟨fun hrefusal => absurd (hnot.symm.trans hrefusal) Bool.false_ne_true, fun _ => ⟨rfl, rfl⟩⟩
  | ran =>
    cases hr
    exact ⟨fun hrefusal => absurd hrefusal Bool.false_ne_true, fun hne => absurd rfl hne⟩

end Ending

end Sys2Proof.Machine
end

section
/-! PROOFS. The statements of 60_exceptions.md: every command answers (R170, R181), refusals change nothing (R171, R172),
illegal words (R173), the order of refusals (R176), nothing issued (R188). -/

namespace Sys2Proof.Machine

/-- Settles O5: the word of a command is selected by a row, so a word without a row does not decode, and the fetch
refuses it before any command looks at the link. -/
theorem illegalWordIsRefusedFirst : Obligations.IllegalWordIsRefusedFirst := by
  refine ⟨fun s w rest hhost hrows => ?_, by decide, fun sig level _ => decode_encode _⟩
  obtain ⟨e, hdecode⟩ := decode_error_of_no_row hrows
  exact step_illegal hhost hdecode

/-- Settles O39: a step is total by the host's next act, and each ending of a command leaves a response. -/
theorem everyCommandAnswers : Obligations.EveryCommandAnswers := by
  refine ⟨exists_step, fun i s => ?_⟩
  obtain ⟨t, hexec, hending⟩ := exec_ending i s
  obtain ⟨r, hr⟩ := hending.exists_response
  exact ⟨t, r, hexec, hr⟩

/-- Settles O40: one clause for each place in the order. -/
theorem refusalsComeInOrder : Obligations.RefusalsComeInOrder := by
  refine ⟨?_, ?_, ?_, ?_, ?_, ?_, ?_⟩
  · exact fun s w rest e hhost hdecode => step_illegal hhost hdecode
  · exact fun i s hclose hlink => exec_linkFailed hclose hlink
  · exact fun i s hopen hclose hlink => (linkStops hopen hclose s).2 hlink
  · exact fun s hlink => exec_openLink_open hlink
  · exact fun i s hlink hwf => exec_illFormed hlink hwf
  · exact fun i s hlink hwf hneeds haway => exec_away hneeds hlink hwf haway
  · exact fun i s W P len hh hwf hi hlen hfit => exec_tooWide hh hi hwf hlen hfit

/-- Settles O41: of the three endings of a command only the refused one has a refusal for its status, and only OK has
results. -/
theorem refusedCommandsChangeNothing : Obligations.RefusedCommandsChangeNothing := by
  intro i s t r hexec hr
  obtain ⟨u, hu, hending⟩ := exec_ending i s
  obtain rfl : u = t := by simpa [hu] using hexec
  exact hending.response_spec hr

/-- Settles O10: an empty list is the first arm of the fetch. -/
theorem idleStepChangesNothing : Obligations.IdleStepChangesNothing := fun _ hhost => step_idle hhost

end Sys2Proof.Machine
end

section
/-! SUPPORT. What stands before a sample and before a rising clock edge in the events of a command: each clock cycle and
each sample brings its own settle wait, and that lasts through any sequence of them (spec 70_reset_and_hazards.md R205,
R206). -/

namespace Sys2Proof.Machine

/-! ### Settled events -/

/-- A trace that is settled from the start of a command is settled after any events before it (R205). -/
theorem sampleSettled_of_false {es : List Event} (h : sampleSettled false es = true) (settled : Bool) :
    sampleSettled settled es = true := by
  cases settled with
  | false => exact h
  | true =>
    induction es with
    | nil => rfl
    | cons e rest ih =>
      cases e with
      | set sig v => exact h
      | sample v => exact absurd h Bool.false_ne_true
      | wait t =>
        cases t with
        | settle => exact h
        | pulse | reset => exact ih h

theorem sampleSettled_append {settled : Bool} {a b : List Event} (ha : sampleSettled settled a = true)
    (hb : sampleSettled false b = true) : sampleSettled settled (a ++ b) = true := by
  induction a generalizing settled with
  | nil => exact sampleSettled_of_false hb settled
  | cons e rest ih =>
    cases e with
    | set sig v => exact ih ha
    | wait t => exact ih ha
    | sample v =>
      obtain ⟨hsettled, hrest⟩ := Bool.and_eq_true_iff.mp ha
      exact Bool.and_eq_true_iff.mpr ⟨hsettled, ih hrest⟩

/-- The same of the rising edges (R206). -/
theorem edgeSettled_of_false {es : List Event} (h : edgeSettled false es = true) (settled : Bool) :
    edgeSettled settled es = true := by
  cases settled with
  | false => exact h
  | true =>
    induction es with
    | nil => rfl
    | cons e rest ih =>
      cases e with
      | set sig v =>
        cases sig with
        | mode | dataIn => exact h
        | resetRequest | trst => exact ih h
        | clock =>
          obtain ⟨-, hrest⟩ := Bool.and_eq_true_iff.mp h
          exact Bool.and_eq_true_iff.mpr ⟨Bool.or_true _, ih hrest⟩
      | sample v => exact ih h
      | wait t =>
        cases t with
        | settle => exact h
        | pulse | reset => exact ih h

theorem edgeSettled_append {settled : Bool} {a b : List Event} (ha : edgeSettled settled a = true)
    (hb : edgeSettled false b = true) : edgeSettled settled (a ++ b) = true := by
  induction a generalizing settled with
  | nil => exact edgeSettled_of_false hb settled
  | cons e rest ih =>
    cases e with
    | set sig v =>
      cases sig with
      | mode | dataIn | resetRequest | trst => exact ih ha
      | clock =>
        obtain ⟨hedge, hrest⟩ := Bool.and_eq_true_iff.mp ha
        exact Bool.and_eq_true_iff.mpr ⟨hedge, ih hrest⟩
    | sample v => exact ih ha
    | wait t => exact ih ha

/-- Every sample and every rising edge of the events has its settle wait among them (R205, R206). -/
structure Settled (events : List Event) : Prop where
  samples : sampleSettled false events = true
  edges : edgeSettled false events = true

theorem Settled.append {a b : List Event} (ha : Settled a) (hb : Settled b) : Settled (a ++ b) :=
  ⟨sampleSettled_append ha.samples hb.samples, edgeSettled_append ha.edges hb.edges⟩

theorem settled_navEvents (tms : Level) : Settled (navEvents tms) := ⟨rfl, rfl⟩

theorem settled_shiftEvents (tms tdi : Level) (b : Option Level) : Settled (shiftEvents tms tdi b) := by
  cases b <;> exact ⟨rfl, rfl⟩

theorem settled_connectEvents : Settled connectEvents := ⟨rfl, rfl⟩

/-! ### Operations that append settled events -/

/-- From `s` to `t` the trace grows by settled events. -/
def Settles (s t : State) : Prop := ∃ events, t.trace = s.trace ++ events ∧ Settled events

theorem Settles.refl (s : State) : Settles s s := ⟨[], (List.append_nil _).symm, rfl, rfl⟩

theorem Settles.trans {s t u : State} (h1 : Settles s t) (h2 : Settles t u) : Settles s u := by
  obtain ⟨a, ht, ha⟩ := h1
  obtain ⟨b, hu, hb⟩ := h2
  exact ⟨a ++ b, by rw [hu, ht, List.append_assoc], ha.append hb⟩

theorem Settles.respond {s u : State} (h : Settles s u) (e : Status) (a b : Word) : Settles s (respond e a b u) := h

theorem raise_settles (e : Status) (s : State) : Settles s (raise e s) := (Settles.refl s).respond ..

/-- A write of any line but the clock needs no wait before it. -/
theorem setSignal_settles {x : Signal} (hx : x ≠ .clock) (v : Level) (s : State) : Settles s (setSignal x v s) := by
  refine ⟨_, setSignal_trace .., rfl, ?_⟩
  cases x with
  | clock => exact absurd rfl hx
  | mode | dataIn | resetRequest | trst => rfl

theorem wait_settles (t : Duration) (s : State) : Settles s (wait t s) := ⟨_, wait_trace .., rfl, rfl⟩

theorem navCycle_settles (tms : Level) (s : State) : Settles s (navCycle tms s) :=
  ⟨_, navCycle_trace tms s, settled_navEvents tms⟩

theorem shiftCycle_settles (tms tdi sample : Level) (s : State) : Settles s (shiftCycle tms tdi sample s).2 :=
  ⟨_, shiftCycle_trace tms tdi sample s, settled_shiftEvents ..⟩

theorem probeSample_settles (s : State) : Settles s (probeSample s).2 := by
  rw [probeSample_eq]
  exact ⟨_, moved_trace .., rfl, rfl⟩

theorem toShiftIR_settles (s : State) : Settles s (toShiftIR s) :=
  (navCycle_settles ..).trans <| (navCycle_settles ..).trans (navCycle_settles ..)

theorem toShiftDR_settles (s : State) : Settles s (toShiftDR s) := (navCycle_settles ..).trans (navCycle_settles ..)

theorem exitToHome_settles (s : State) : Settles s (exitToHome s) := (navCycle_settles ..).trans (navCycle_settles ..)

/-- A loop settles when each round does; `view` picks the state out of what the loop carries. -/
theorem forLoop_settles {α : Type} (view : α → State) {body : Nat → α → α}
    (h : ∀ i a, Settles (view a) (view (body i a))) (n first : Nat) (a : α) :
    Settles (view a) (view (forLoop body n first a)) := by
  induction n generalizing first a with
  | zero => exact .refl _
  | succ n ih => exact (h first a).trans (ih (first + 1) (body first a))

/-! ### The bodies of the commands -/

theorem openWith_settles (a : OpenAnswer) (s : State) : Settles s (openWith a s) := by
  cases a with
  | Found => exact ⟨idleEvents, rfl, rfl, rfl⟩
  | NotFound | Busy => exact .refl s

theorem connectSequence_settles (s : State) : Settles s (connectSequence s) := by
  rw [connectSequence_eq]
  exact ⟨_, moved_trace .., settled_connectEvents⟩

theorem scanShift_settles (v : Word) (W P L : Nat) (s : State) : Settles s (scanShift v W P L s).2 :=
  forLoop_settles (fun a : Word × State => a.2) (fun _ _ => shiftCycle_settles ..) L 0 (0, s)

theorem instructionShift_settles (W : Nat) (v : Word) (s : State) : Settles s (instructionShift W v s).2 :=
  (toShiftIR_settles s).trans <| (scanShift_settles ..).trans (exitToHome_settles _)

theorem dataShift_settles (W : Nat) (v : Word) (s : State) : Settles s (dataShift W v s).2 :=
  (toShiftDR_settles s).trans <| (scanShift_settles ..).trans (exitToHome_settles _)

theorem probeRun_settles (n : Nat) (s : State) : Settles s (probeRun n s) :=
  forLoop_settles id (fun _ _ => shiftCycle_settles ..) n 1 s

theorem probeZero_settles (s : State) : Settles s (probeZero s) :=
  (shiftCycle_settles ..).trans (setSignal_settles Signal.noConfusion true _)

theorem probeLoop_settles (left n : Nat) (s : State) : Settles s (probeLoop left n s).2 := by
  induction left generalizing n s with
  | zero => exact probeSample_settles s
  | succ left ih =>
    rw [probeLoop]
    split
    · exact probeSample_settles s
    · exact (probeSample_settles s).trans <| (navCycle_settles ..).trans (ih ..)

theorem probePath_settles {toShift : State → State} (h : ∀ s, Settles s (toShift s)) (s : State) :
    Settles s (probePath toShift s).2 :=
  (h s).trans <| (probeRun_settles ..).trans <| (probeZero_settles _).trans <| (probeLoop_settles ..).trans <|
    (shiftCycle_settles ..).trans (exitToHome_settles _)

theorem probeBoth_settles (s : State) : Settles s (probeBoth s).2 :=
  (probePath_settles toShiftIR_settles s).trans (probePath_settles toShiftDR_settles _)

theorem Settles.recordLengths {s u : State} (h : Settles s u) (r : Option Nat × Option Nat) :
    Settles s (recordLengths r u) := by
  rw [Settles, recordLengths_trace]
  exact h

/-! ### The commands -/

/-- Every command but SETSIG, whose edges are the host's (R207), appends settled events, in every state. -/
theorem exec_settles {i : Instr} (hi : ∀ sig level, i ≠ .setsig sig level) (s : State) :
    ∃ t, exec i s = .next t ∧ Settles s t := by
  cases i <;> refine ⟨_, rfl, ?_⟩
  case openLink =>
    split
    · exact raise_settles _ s
    · rw [askEnvironment_eq]
      exact openWith_settles _ (consumeAnswer s)
  case closeLink => exact .refl s
  case setsig sig level => exact absurd rfl (hi sig level)
  case rdtdo =>
    split
    · exact raise_settles _ s
    · exact (probeSample_settles s).respond ..
  case connect =>
    split
    · exact raise_settles _ s
    · exact (connectSequence_settles s).respond ..
  case shiftIr width value =>
    split
    · exact raise_settles _ s
    · exact (instructionShift_settles ..).respond ..
  case shiftDr width value =>
    split
    · exact raise_settles _ s
    · exact (dataShift_settles ..).respond ..
  case measure =>
    split
    · exact raise_settles _ s
    · exact (probeBoth_settles s).recordLengths _
  case execInReset width value =>
    split
    · exact raise_settles _ s
    · have hline : Signal.resetRequest ≠ .clock := Signal.noConfusion
      have asserted := (setSignal_settles hline false s).trans (wait_settles .reset _)
      exact ((asserted.trans (instructionShift_settles ..)).trans (setSignal_settles hline true _)).respond ..

/-- SETSIG takes no sample: it is refused, or it appends its one write (R94, R95). -/
theorem exec_setsig_events (sig : BitVec 3) (level : Level) (s : State) :
    ∃ t, exec (.setsig sig level) s = .next t
      ∧ (t.trace = s.trace ∨ ∃ x, t.trace = s.trace ++ [.set x level]) := by
  refine ⟨_, rfl, ?_⟩
  split
  · exact .inl rfl
  · split
    · exact .inl rfl
    · exact .inr ⟨_, rfl⟩

end Sys2Proof.Machine
end

section
/-! SUPPORT. The lengths through commands that are not MEASURE (spec 43_measure.md R162, R164), a failed link through a
step (60_exceptions.md R174), and the least time of a clock cycle (41_tap_state_machine.md R117, R118; log 9). -/

namespace Sys2Proof.Machine

/-! ### The lengths -/

theorem execAll_lengths {is : List Instr} (his : ∀ i ∈ is, i ≠ .measure) {s t : State}
    (h : execAll is s = .next t) : t.lenI = s.lenI ∧ t.lenD = s.lenD := by
  induction is generalizing s with
  | nil =>
    cases h
    exact ⟨rfl, rfl⟩
  | cons i rest ih =>
    obtain ⟨hi, hrest⟩ := List.forall_mem_cons.mp his
    obtain ⟨u, hu, -⟩ := exec_commandEffect i s
    simp only [execAll, hu] at h
    obtain ⟨hI, hD⟩ := exec_lengths hi hu
    obtain ⟨hI', hD'⟩ := ih hrest h
    exact ⟨hI'.trans hI, hD'.trans hD⟩

/-- A MEASURE that answered OK has written two lengths that are not 0 (R162, R164). -/
theorem lengths_ne_zero_of_measure_ok {s t : State} {r : Response} (hp : s.params.wf) (h : exec .measure s = .next t)
    (hr : t.response = some r) (hok : r.status = .OK) : t.lenI ≠ 0 ∧ t.lenD ≠ 0 := by
  obtain ⟨e, he, rfl⟩ | ⟨-, -, hI, -, hD, -, -⟩ | ⟨-, -, hover⟩ := lengthsComeFromOneMeasurement.2 s t hp h
  · cases hr
    exact absurd (hok ▸ he : Status.OK.isRefusal = true) Bool.false_ne_true
  · exact ⟨by omega, by omega⟩
  · obtain rfl := Option.some.inj (hover.symm.trans hr)
    exact absurd hok Status.noConfusion

/-! ### A failed link -/

/-- No command word leaves `Failed`, an illegal one among them (R173, R174). -/
theorem runCommand_keeps_failed (w : Command) {s : State} (hlink : s.link = .Failed) :
    ∃ t, runCommand w s = .next t ∧ t.link = .Failed := by
  cases hdecode : decode w with
  | ok i => simpa only [runCommand, hdecode] using exec_keeps_failed i hlink
  | error e => exact ⟨_, runCommand_illegal hdecode s, hlink⟩

/-- Only an engine reset leaves `Failed` (R174, R200). -/
theorem step_keeps_failed {s : State} (hlink : s.link = .Failed) (hreset : ∀ rest, s.host ≠ .engineReset :: rest) :
    ∃ t, step s = .next t ∧ t.link = .Failed := by
  cases hhost : s.host with
  | nil => exact ⟨s, step_idle hhost, hlink⟩
  | cons act rest =>
    cases act with
    | engineReset => exact absurd hhost (hreset rest)
    | command w =>
      rw [step_command hhost]
      exact runCommand_keeps_failed w hlink

/-! ### The least time of a clock cycle -/

theorem leastDuration_navEvents (tms : Level) :
    leastDuration (navEvents tms) = Config.leastTime .settle + 2 * Config.leastTime .pulse := by
  simp only [navEvents, pulseEvents, leastDuration, List.cons_append, List.nil_append, List.map_cons, List.map_nil,
    List.sum_cons, List.sum_nil]
  omega

/-- A sample takes no time of its own (R98, R99). -/
theorem leastDuration_shiftEvents (tms tdi : Level) (b : Option Level) :
    leastDuration (shiftEvents tms tdi b) = Config.leastTime .settle + 2 * Config.leastTime .pulse := by
  have hnav := leastDuration_navEvents tms
  cases b <;> simpa [shiftEvents, navEvents, sampleEvents, leastDuration] using hnav

end Sys2Proof.Machine
end

section
/-! PROOFS. The statements of 70_reset_and_hazards.md: the engine reset (R200), settling before samples and edges (R205,
R206), CONNECT's counts and the least time of a cycle (R214), the measured lengths as bounds (R215). -/

namespace Sys2Proof.Machine

/-- Settles O38: an OK MEASURE leaves lengths that are not 0, no other command writes them, and at home a shift of a
legal width that is too wide for a measured length is refused for that. -/
theorem measuredLengthBoundsLaterShifts : Obligations.MeasuredLengthBoundsLaterShifts := by
  intro s t u is r width value hp hmeasure hr hok his hexec hh hwidth
  obtain ⟨hI, hD⟩ := execAll_lengths his hexec
  obtain ⟨hI0, hD0⟩ := lengths_ne_zero_of_measure_ok hp hmeasure hr hok
  rw [← hI] at hI0 ⊢
  rw [← hD] at hD0 ⊢
  exact ⟨fun hfit => exec_tooWide hh rfl hwidth hD0 hfit,
    fun hfit => ⟨exec_tooWide hh rfl hwidth hI0 hfit, exec_tooWide hh rfl hwidth hI0 hfit⟩⟩

/-- Settles O44: SETSIG takes no sample, and the events of every other command are settled. -/
theorem settleWaitBeforeEverySample : Obligations.SettleWaitBeforeEverySample := by
  intro i s
  by_cases hi : ∃ sig level, i = .setsig sig level
  · obtain ⟨sig, level, rfl⟩ := hi
    obtain ⟨t, hexec, hrefused | ⟨x, hwrite⟩⟩ := exec_setsig_events sig level s
    · exact ⟨t, [], hexec, by rw [hrefused, List.append_nil], rfl⟩
    · exact ⟨t, [.set x level], hexec, hwrite, rfl⟩
  · obtain ⟨t, hexec, events, htrace, hsettled⟩ := exec_settles (fun sig level h => hi ⟨sig, level, h⟩) s
    exact ⟨t, events, hexec, htrace, hsettled.samples⟩

/-- Settles O45: neither CONNECT nor a command that needs the home state is SETSIG, so their events are settled. -/
theorem modeSettlesBeforeEveryEdge : Obligations.ModeSettlesBeforeEveryEdge := by
  intro i s hi
  have hnot : ∀ sig level, i ≠ .setsig sig level := by
    rintro sig level rfl
    exact hi.elim Bool.false_ne_true Instr.noConfusion
  obtain ⟨t, hexec, events, htrace, hsettled⟩ := exec_settles hnot s
  exact ⟨t, events, hexec, htrace, hsettled.edges⟩

/-- Settles O52: the counts are those of CONNECT's one list of events, the times those of the events of a cycle. -/
theorem connectPulsesAndCycleTime : Obligations.ConnectPulsesAndCycleTime := by
  refine ⟨fun s hlink => ⟨_, connectEvents, exec_connect_open hlink, rfl, rfl, rfl⟩, fun m s => ?_,
    fun m d sample s => ?_, rfl⟩
  · exact ⟨_, navCycle_trace m s, leastDuration_navEvents m⟩
  · exact ⟨_, shiftCycle_trace m d sample s, leastDuration_shiftEvents ..⟩

/-- Settles O12: the fetch of a reset writes the nine items, a failed link lasts through every other step, and after
reset no act waits. -/
theorem engineResetRestoresEveryItem : Obligations.EngineResetRestoresEveryItem :=
  ⟨fun _ _ hhost => step_engineReset hhost, fun _ hlink hreset => step_keeps_failed hlink hreset, step_idle rfl⟩

end Sys2Proof.Machine
end

section
/-! PROOFS. The statement of 41_tap_state_machine.md on the G entries: the transitions of K1 (log 10). -/

namespace Sys2Proof.Machine

/-- The rising edge of `SETSIG clock, 1` takes the entry of the transition function at `tap` and `mode` (R94, R111). -/
theorem exec_setsig_clock_takes_entry {s : State} {x y : Tap} {m : Level} (hentry : tapNext x m = y)
    (hlink : s.link = .Open) (hc : s.out.clock = false) (ht : s.out.trst = true) (htap : s.tap = x)
    (hmode : s.out.mode = m) : ∃ t, exec (.setsig 0 true) s = .next t ∧ t.tap = y := by
  subst htap hmode hentry
  exact exec_setsig_clock_rises hlink hc ht

/-- Settles O19: each of the seventeen entries is one of the transition function, which the edge takes. -/
theorem suppliedTransitionsOfTheStateMachine : Obligations.SuppliedTransitionsOfTheStateMachine := by
  intro e he s
  have hentry : tapNext e.1 e.2.1 = e.2.2 := by
    revert e
    decide
  exact exec_setsig_clock_takes_entry hentry

end Sys2Proof.Machine
end
